-- ==== Sys2Proof/Word.lean ====
section
/-! DEFINITION. Word types and the sparse table type of the model (R9: bit 0 is the least significant bit; multi-byte
values are little-endian). -/
namespace Sys2Proof

/-- A byte of memory. -/
abbrev Byte := BitVec 8
/-- A vector register, a parameter word, half of a 64-bit operand (R155). -/
abbrev W32 := BitVec 32
/-- A uniform register (R155). -/
abbrev W64 := BitVec 64
/-- A code address or a virtual address of 56 bits (R4, R315). -/
abbrev Addr := BitVec 56
/-- An AX96 entry (R240). -/
abbrev W96 := BitVec 96

/-- A sparse table: keys strictly rising. `Machine/Table.lean` holds its operations. -/
abbrev Tab (α : Type) := List (Nat × α)

end Sys2Proof
end

