-- ==== Sys2Proof/Config.lean ====
section
/-! DEFINITION. What the spec leaves open: free values, which nothing can evaluate, and named functions that it does not
give. -/
namespace Sys2Proof.Config

/-- SHAKE256 of a byte list, with the number of bytes asked for (R56, R59, R69; log 7). -/
opaque shake256 : List Byte → Nat → List Byte
/-- An Ed448 signature by the attestation key of a boot count over a digest (R69, R70; log 7). -/
opaque ed448 : Nat → List Byte → List Byte
/-- Public keys of a boot count: X448 (56 bytes), Ed448 (57 bytes) (R69; log 7). -/
opaque x448Key : Nat → List Byte
opaque ed448Key : Nat → List Byte
/-- The four firmware digests (R69): boot image, mantel, kindling, Bellows (log 7). -/
opaque firmware : Nat → List Byte
/-- Draws of the service die's random source: which draw, and how many bytes (R48, R55; log 73). -/
opaque random : Nat → Nat → List Byte
/-- The X448 secret that the device of a boot count shares with a client's public key (R59; log 7). -/
opaque sharedSecret : Nat → List Byte → List Byte
/-- A migration (R66; log 7): the destination's X448 key as its report of a draw shows it, the public key and the shared secret of an
ephemeral key pair of a draw, and AES key wrap: a data key, by number, wrapped under a wrapping key, and unwrapped. -/
opaque peerKey : Nat → List Byte
opaque ephemeralKey : Nat → List Byte
opaque ephemeralSecret : Nat → List Byte → List Byte
opaque wrapKey : List Byte → Nat → List Byte
opaque unwrapKey : List Byte → List Byte → Nat
/-- A signature by the identity key over a digest, and its X.509 chain (R69; log 7). -/
opaque identity : List Byte → List Byte
opaque chain : List Byte
/-- The device serial number (R70; log 7). -/
opaque serial : Nat
/-- The ciphertext that a save-area section has under a key, from which its digest is taken (R170; log 7). -/
opaque cipher : Nat → List Byte → List Byte

/-- The 64 bytes in which a section of the Soot record shows its counters, where the spec gives no layout (R310; log 30). -/
opaque sootLayout : Nat → List Nat → List Byte

/-- Whether every lane's eye margin of a link passes at the next higher rate, after so many retrains (R40; log 83). -/
opaque eyePasses : Nat → Nat → Bool
/-- Array cycles of a kind of matrix operation, which the spec does not give for each (R311; log 12). -/
opaque arrayCycles : Nat → Nat

/-- A correctly rounded transcendental whose bracket does not decide its rounding: function and argument (log 15). -/
opaque transcendental : Nat → Nat → Nat

end Sys2Proof.Config
end

