-- ==== Sys2Proof/Syntax.lean ====
section
/-! DEFINITION. The instructions of KXA as syntax (R324 to R334), and the operations and events of the device that
spec/opcode_table.json lists beside them: one constructor of `Instr` per row of the table. -/
namespace Sys2Proof

/-- A 10-bit operand field (R18). An unused field is 0x000, which is `v 0`; an omitted operand of the M or A format is
0x200, which is `p 0`. -/
inductive Operand where
  | v (n : BitVec 8)
  | g (n : BitVec 6)
  | p (n : BitVec 4)
  | t (n : BitVec 4)
  | a (n : BitVec 3)
  | pin (n : BitVec 3)
  | w (k : BitVec 3) (n : BitVec 5)
  deriving DecidableEq, Repr, Inhabited

/-- The header of an instruction without its opcode (R324). `eb` holds [29:27]: bit 0 source A, bit 1 B, bit 2 C. -/
structure Header where
  eb : BitVec 3
  arm : Bool
  atok : BitVec 3
  wait : BitVec 8
  ginv : Bool
  guard : BitVec 4
  deriving DecidableEq, Repr, Inhabited

/-- The V format (R325, R328). -/
structure VForm where
  h : Header
  d : Operand
  a : Operand
  b : Operand
  c : Operand
  sel : BitVec 4
  rnd : BitVec 3
  sat : Bool
  dfmt : BitVec 4
  sfmt : BitVec 4
  deriving DecidableEq, Repr, Inhabited

/-- The I format (R325, R328). -/
structure IForm where
  h : Header
  d : Operand
  a : Operand
  sel : BitVec 4
  rnd : BitVec 3
  sat : Bool
  dfmt : BitVec 4
  imm : W32
  deriving DecidableEq, Repr, Inhabited

/-- The M format (R325). -/
structure MForm where
  h : Header
  data : Operand
  base : Operand
  idx : Operand
  scope : BitVec 3
  ord : BitVec 2
  size : BitVec 3
  scl : BitVec 2
  subop : BitVec 4
  ofs : BitVec 20
  deriving DecidableEq, Repr, Inhabited

/-- The B format (R325). `mod` is MODB, whose low two bits are HINT (R328). -/
structure BForm where
  h : Header
  opnd : Operand
  mod : BitVec 6
  lofs : W32
  tslot : BitVec 3
  deriving DecidableEq, Repr, Inhabited

/-- The A format (R325). `lo` is MODA [91:88], DFMT or SCOPE; `pw` is [94:93] (R328). -/
structure AForm where
  h : Header
  res : Operand
  a : Operand
  b : Operand
  c : Operand
  imm16 : BitVec 16
  lo : BitVec 4
  sat : Bool
  pw : BitVec 2
  poll : Bool
  deriving DecidableEq, Repr, Inhabited

/-- The authority of a command or session (R48). -/
inductive Who where
  | operator
  | owner (p : Nat)
  | auditor
  deriving DecidableEq, Repr, Inhabited

/-- An estimate of the eye monitor: the lane and its margin (R40). -/
structure EyeEstimate where
  lane : Fin 64
  margin : BitVec 8
  deriving DecidableEq, Repr
/-- The end of the post-copy pulls of a partition, and whether the source has reported loss (R98). -/
structure PullEnd where
  p : Nat
  loss : Bool
  deriving DecidableEq, Repr
/-- Who asked for a hypervisor call: a session on the command interface, or a record of the call ring by its TAG
(R75, R80). -/
inductive CallSrc where
  | session (who : Who)
  | call (space tag : Nat)
  deriving DecidableEq, Repr, Inhabited

/-- What a port request does (R43, R45, R47). -/
inductive PortOp where
  | load
  | store
  | add
  | swap
  | cas
  deriving DecidableEq, Repr, Inhabited

/-- A request that enters over a Rinnor port or the storage port: an address of the space it is translated in, a
length, and the bytes it carries (for a compare-and-swap the compare value, then the new value). -/
structure PortReq where
  op : PortOp
  va : Nat
  len : Nat
  data : List Byte
  deriving DecidableEq, Repr, Inhabited

/-- The outcome the paging service gives a page (R96). -/
inductive Resolution where
  | mapped
  | refused
  | lost
  deriving DecidableEq, Repr, Inhabited

/-- A register of the command interface written by REGISTER_WRITE (R52). -/
inductive CtlReg where
  | pctl (p : Nat)
  | pshare (p : Nat)
  | phold (p : Nat)
  | audcap
  | pscr (p : Nat)
  | audscr
  | pcomp (p : Nat)
  | acomp
  | pscope (p : Nat)
  | precl (p : Nat)
  | lcblo (p k : Nat)
  | lcbhi (p k : Nat)
  | lcidle (d c : Nat)
  | bringst
  | svccap
  | linkst (k : Nat)
  | gslot (d c s : Nat)
  | gpc (d c s : Nat)
  deriving DecidableEq, Repr, Inhabited

/-- The queue sets of the kindling cores (R74). -/
inductive KindSet where
  | service
  | drain
  | storage
  | network
  deriving DecidableEq, Repr, Inhabited

/-- A function behind the storage port, as the root port enumerated it (R110, R112): its requester ID, the space it is wholly
assigned to, the highest I/O queue identifier its controller supports, and the address of its register BAR. -/
structure PciFn where
  id : BitVec 16
  space : Nat
  queues : Nat
  bar : Nat
  deriving DecidableEq, Repr, Inhabited

/-- One constructor per row of spec/opcode_table.json. The first block are the 164 opcodes of the Opcode Map (R341); the
second block are the operations and events of the device, with the operands the outside chooses. -/
inductive Instr where
  /-- INVALID (R338), opcode 0x000, pipe class C. -/
  | invalid (f : VForm)
  /-- NOP (R354), opcode 0x001, pipe class C. -/
  | nop (f : VForm)
  /-- IADD (R345), opcode 0x002, pipe class V. -/
  | iadd (f : VForm)
  /-- IADD_I (R345), opcode 0x042, pipe class V. -/
  | iaddI (f : IForm)
  /-- ISUB (R345), opcode 0x003, pipe class V. -/
  | isub (f : VForm)
  /-- ISUB_I (R345), opcode 0x043, pipe class V. -/
  | isubI (f : IForm)
  /-- IMUL (R345), opcode 0x004, pipe class V. -/
  | imul (f : VForm)
  /-- IMUL_I (R345), opcode 0x044, pipe class V. -/
  | imulI (f : IForm)
  /-- IMULH (R345), opcode 0x005, pipe class V. -/
  | imulh (f : VForm)
  /-- IMULH_I (R345), opcode 0x045, pipe class V. -/
  | imulhI (f : IForm)
  /-- IMAD (R345), opcode 0x006, pipe class V. -/
  | imad (f : VForm)
  /-- IADDC (R347), opcode 0x007, pipe class V. -/
  | iaddc (f : VForm)
  /-- IMIN (R345), opcode 0x008, pipe class V. -/
  | imin (f : VForm)
  /-- IMIN_I (R345), opcode 0x048, pipe class V. -/
  | iminI (f : IForm)
  /-- IMAX (R345), opcode 0x009, pipe class V. -/
  | imax (f : VForm)
  /-- IMAX_I (R345), opcode 0x049, pipe class V. -/
  | imaxI (f : IForm)
  /-- IABS (R345), opcode 0x00A, pipe class V. -/
  | iabs (f : VForm)
  /-- INEG (R345), opcode 0x00B, pipe class V. -/
  | ineg (f : VForm)
  /-- ICMP (R346), opcode 0x00C, pipe class V. -/
  | icmp (f : VForm)
  /-- ICMP_I (R346), opcode 0x04C, pipe class V. -/
  | icmpI (f : IForm)
  /-- AND (R345), opcode 0x00D, pipe class V. -/
  | andB (f : VForm)
  /-- AND_I (R345), opcode 0x04D, pipe class V. -/
  | andBI (f : IForm)
  /-- OR (R345), opcode 0x00E, pipe class V. -/
  | orB (f : VForm)
  /-- OR_I (R345), opcode 0x04E, pipe class V. -/
  | orBI (f : IForm)
  /-- XOR (R345), opcode 0x00F, pipe class V. -/
  | xorB (f : VForm)
  /-- XOR_I (R345), opcode 0x04F, pipe class V. -/
  | xorBI (f : IForm)
  /-- ANDN (R345), opcode 0x010, pipe class V. -/
  | andnB (f : VForm)
  /-- ANDN_I (R345), opcode 0x050, pipe class V. -/
  | andnBI (f : IForm)
  /-- NOT (R345), opcode 0x011, pipe class V. -/
  | notB (f : VForm)
  /-- SHL (R345), opcode 0x012, pipe class V. -/
  | shl (f : VForm)
  /-- SHL_I (R345), opcode 0x052, pipe class V. -/
  | shlI (f : IForm)
  /-- SHR (R345), opcode 0x013, pipe class V. -/
  | shr (f : VForm)
  /-- SHR_I (R345), opcode 0x053, pipe class V. -/
  | shrI (f : IForm)
  /-- SAR (R345), opcode 0x014, pipe class V. -/
  | sar (f : VForm)
  /-- SAR_I (R345), opcode 0x054, pipe class V. -/
  | sarI (f : IForm)
  /-- ROL (R345), opcode 0x015, pipe class V. -/
  | rol (f : VForm)
  /-- ROL_I (R345), opcode 0x055, pipe class V. -/
  | rolI (f : IForm)
  /-- CLZ (R345), opcode 0x016, pipe class V. -/
  | clz (f : VForm)
  /-- POPC (R345), opcode 0x017, pipe class V. -/
  | popc (f : VForm)
  /-- BREV (R345), opcode 0x018, pipe class V. -/
  | brev (f : VForm)
  /-- BFE (R348), opcode 0x019, pipe class V. -/
  | bfe (f : VForm)
  /-- BFI (R348), opcode 0x01A, pipe class V. -/
  | bfi (f : VForm)
  /-- SEL (R350), opcode 0x01B, pipe class V. -/
  | sel (f : VForm)
  /-- LEA (R353), opcode 0x01C, pipe class V. -/
  | lea (f : MForm)
  /-- IADDW (R352), opcode 0x01D, pipe class V. -/
  | iaddw (f : VForm)
  /-- SEXT (R349), opcode 0x01E, pipe class V. -/
  | sext (f : VForm)
  /-- ZEXT (R349), opcode 0x01F, pipe class V. -/
  | zext (f : VForm)
  /-- MOV (R351), opcode 0x020, pipe class V. -/
  | mov (f : VForm)
  /-- MOVI (R351), opcode 0x060, pipe class V. -/
  | movi (f : IForm)
  /-- MOVU (R351), opcode 0x061, pipe class V. -/
  | movu (f : IForm)
  /-- FADD (R374), opcode 0x080, pipe class V. -/
  | fadd (f : VForm)
  /-- FADD_I (R374), opcode 0x0C0, pipe class V. -/
  | faddI (f : IForm)
  /-- FSUB (R374), opcode 0x081, pipe class V. -/
  | fsub (f : VForm)
  /-- FSUB_I (R374), opcode 0x0C1, pipe class V. -/
  | fsubI (f : IForm)
  /-- FMUL (R374), opcode 0x082, pipe class V. -/
  | fmul (f : VForm)
  /-- FMUL_I (R374), opcode 0x0C2, pipe class V. -/
  | fmulI (f : IForm)
  /-- FFMA (R374), opcode 0x083, pipe class V. -/
  | ffma (f : VForm)
  /-- FMIN (R375), opcode 0x084, pipe class V. -/
  | fmin (f : VForm)
  /-- FMIN_I (R375), opcode 0x0C4, pipe class V. -/
  | fminI (f : IForm)
  /-- FMAX (R375), opcode 0x085, pipe class V. -/
  | fmax (f : VForm)
  /-- FMAX_I (R375), opcode 0x0C5, pipe class V. -/
  | fmaxI (f : IForm)
  /-- FCMP (R376), opcode 0x086, pipe class V. -/
  | fcmp (f : VForm)
  /-- FCMP_I (R376), opcode 0x0C6, pipe class V. -/
  | fcmpI (f : IForm)
  /-- FCLASS (R377), opcode 0x087, pipe class V. -/
  | fclass (f : VForm)
  /-- FSCALE (R378), opcode 0x088, pipe class V. -/
  | fscale (f : VForm)
  /-- FSCALE_I (R378), opcode 0x0C8, pipe class V. -/
  | fscaleI (f : IForm)
  /-- FRND (R378), opcode 0x089, pipe class V. -/
  | frnd (f : VForm)
  /-- FRCP (R379), opcode 0x08A, pipe class V. -/
  | frcp (f : VForm)
  /-- FRSQ (R379), opcode 0x08B, pipe class V. -/
  | frsq (f : VForm)
  /-- FSQRT (R379), opcode 0x08C, pipe class V. -/
  | fsqrt (f : VForm)
  /-- FDIV (R379), opcode 0x08D, pipe class V. -/
  | fdiv (f : VForm)
  /-- FEXP2 (R379), opcode 0x08E, pipe class V. -/
  | fexp2 (f : VForm)
  /-- FLOG2 (R379), opcode 0x08F, pipe class V. -/
  | flog2 (f : VForm)
  /-- FSIN (R379), opcode 0x090, pipe class V. -/
  | fsin (f : VForm)
  /-- FCOS (R379), opcode 0x091, pipe class V. -/
  | fcos (f : VForm)
  /-- FTANH (R379), opcode 0x092, pipe class V. -/
  | ftanh (f : VForm)
  /-- HADD2 (R380), opcode 0x093, pipe class V. -/
  | hadd2 (f : VForm)
  /-- HMUL2 (R380), opcode 0x094, pipe class V. -/
  | hmul2 (f : VForm)
  /-- HFMA2 (R380), opcode 0x095, pipe class V. -/
  | hfma2 (f : VForm)
  /-- HMAX2 (R380), opcode 0x096, pipe class V. -/
  | hmax2 (f : VForm)
  /-- CVT (R381), opcode 0x097, pipe class V. -/
  | cvt (f : VForm)
  /-- PACKB (R384), opcode 0x098, pipe class V. -/
  | packb (f : VForm)
  /-- UNPACKB (R384), opcode 0x099, pipe class V. -/
  | unpackb (f : VForm)
  /-- PAND (R355), opcode 0x100, pipe class C. -/
  | pand (f : VForm)
  /-- POR (R355), opcode 0x101, pipe class C. -/
  | por (f : VForm)
  /-- PXOR (R355), opcode 0x102, pipe class C. -/
  | pxor (f : VForm)
  /-- PNOT (R355), opcode 0x103, pipe class C. -/
  | pnot (f : VForm)
  /-- PMOV (R355), opcode 0x104, pipe class C. -/
  | pmov (f : VForm)
  /-- PANY (R355), opcode 0x105, pipe class C. -/
  | pany (f : VForm)
  /-- PALL (R355), opcode 0x106, pipe class C. -/
  | pall (f : VForm)
  /-- BRA (R356), opcode 0x108, pipe class C. -/
  | bra (f : BForm)
  /-- BRX (R357), opcode 0x109, pipe class C. -/
  | brx (f : BForm)
  /-- CALL (R358), opcode 0x10A, pipe class C. -/
  | call (f : BForm)
  /-- EXIT (R359), opcode 0x10B, pipe class C. -/
  | exitT (f : VForm)
  /-- RET (R358), opcode 0x10C, pipe class C. -/
  | ret (f : BForm)
  /-- BAR (R362), opcode 0x10D, pipe class C. -/
  | bar (f : IForm)
  /-- ELECT (R364), opcode 0x10E, pipe class C. -/
  | elect (f : VForm)
  /-- VOTE (R365), opcode 0x10F, pipe class C. -/
  | vote (f : VForm)
  /-- SHFL (R366), opcode 0x110, pipe class C. -/
  | shfl (f : VForm)
  /-- SHFL_I (R366), opcode 0x150, pipe class C. -/
  | shflI (f : IForm)
  /-- GREDUCE (R367), opcode 0x111, pipe class C. -/
  | greduce (f : VForm)
  /-- YIELD (R368), opcode 0x112, pipe class C. -/
  | yield (f : VForm)
  /-- SLEEP (R369), opcode 0x113, pipe class C. -/
  | sleep (f : IForm)
  /-- NOPRE (R370), opcode 0x114, pipe class C. -/
  | nopre (f : VForm)
  /-- PREOK (R370), opcode 0x115, pipe class C. -/
  | preok (f : VForm)
  /-- LD (R390), opcode 0x180, pipe class M. -/
  | ld (f : MForm)
  /-- ST (R390), opcode 0x181, pipe class M. -/
  | st (f : MForm)
  /-- LDN (R391), opcode 0x182, pipe class M. -/
  | ldn (f : MForm)
  /-- STN (R391), opcode 0x183, pipe class M. -/
  | stn (f : MForm)
  /-- LDU (R390), opcode 0x184, pipe class M. -/
  | ldu (f : MForm)
  /-- STU (R390), opcode 0x185, pipe class M. -/
  | stu (f : MForm)
  /-- LDPARAM (R392), opcode 0x186, pipe class M. -/
  | ldparam (f : MForm)
  /-- PAGEREQ (R393), opcode 0x187, pipe class M. -/
  | pagereq (f : MForm)
  /-- ATOM (R394), opcode 0x188, pipe class M. -/
  | atom (f : MForm)
  /-- ATOMF (R394), opcode 0x189, pipe class M. -/
  | atomf (f : MForm)
  /-- RED (R394), opcode 0x18A, pipe class M. -/
  | red (f : MForm)
  /-- FENCE (R396), opcode 0x18B, pipe class M. -/
  | fence (f : MForm)
  /-- ACQR (R397), opcode 0x18C, pipe class M. -/
  | acqr (f : MForm)
  /-- DRAINST (R398), opcode 0x18D, pipe class M. -/
  | drainst (f : VForm)
  /-- QCTL (R399), opcode 0x18E, pipe class M. -/
  | qctl (f : MForm)
  /-- PIN (R217), opcode 0x1B0, pipe class M. -/
  | pin (f : VForm)
  /-- UNPIN (R218), opcode 0x1B1, pipe class M. -/
  | unpin (f : VForm)
  /-- RECLAIM (R219), opcode 0x1B2, pipe class M. -/
  | reclaim (f : VForm)
  /-- RECLWAIT (R222), opcode 0x1B3, pipe class M. -/
  | reclwait (f : VForm)
  /-- SNAP (R400), opcode 0x1B4, pipe class M. -/
  | snap (f : VForm)
  /-- SNAPQ (R401), opcode 0x1B5, pipe class M. -/
  | snapq (f : VForm)
  /-- COPY (R414), opcode 0x200, pipe class A. -/
  | copy (f : AForm)
  /-- GCOPY (R272), opcode 0x201, pipe class A. -/
  | gcopy (f : AForm)
  /-- BINIT (R415), opcode 0x202, pipe class A. -/
  | binit (f : AForm)
  /-- BINIT_I (R415), opcode 0x242, pipe class A. -/
  | binitI (f : AForm)
  /-- ARRIVE (R415), opcode 0x203, pipe class A. -/
  | arrive (f : AForm)
  /-- ARRIVE_I (R415), opcode 0x243, pipe class A. -/
  | arriveI (f : AForm)
  /-- WAITPHASE (R416), opcode 0x204, pipe class A. -/
  | waitphase (f : AForm)
  /-- WAITPHASE_I (R416), opcode 0x244, pipe class A. -/
  | waitphaseI (f : AForm)
  /-- TESTPHASE (R416), opcode 0x205, pipe class A. -/
  | testphase (f : AForm)
  /-- TESTPHASE_I (R416), opcode 0x245, pipe class A. -/
  | testphaseI (f : AForm)
  /-- TOKWAIT (R417), opcode 0x206, pipe class A. -/
  | tokwait (f : AForm)
  /-- TFILL (R418), opcode 0x207, pipe class A. -/
  | tfill (f : AForm)
  /-- TEMPTY (R418), opcode 0x208, pipe class A. -/
  | tempty (f : AForm)
  /-- TWAIT (R419), opcode 0x209, pipe class A. -/
  | twait (f : AForm)
  /-- CRETRY (R279), opcode 0x20A, pipe class A. -/
  | cretry (f : AForm)
  /-- CSKIP (R279), opcode 0x20B, pipe class A. -/
  | cskip (f : AForm)
  /-- TRES (R407), opcode 0x280, pipe class A. -/
  | tres (f : AForm)
  /-- TREL (R407), opcode 0x281, pipe class A. -/
  | trel (f : AForm)
  /-- TLOAD (R408), opcode 0x282, pipe class A. -/
  | tload (f : AForm)
  /-- MLOADW (R409), opcode 0x283, pipe class A. -/
  | mloadw (f : AForm)
  /-- MLOADW_I (R409), opcode 0x2C3, pipe class A. -/
  | mloadwI (f : AForm)
  /-- MSWAP (R409), opcode 0x284, pipe class A. -/
  | mswap (f : AForm)
  /-- MMA (R410), opcode 0x285, pipe class A. -/
  | mma (f : AForm)
  /-- MHAD (R411), opcode 0x286, pipe class A. -/
  | mhad (f : AForm)
  /-- MHAD_I (R411), opcode 0x2C6, pipe class A. -/
  | mhadI (f : AForm)
  /-- MZERO (R411), opcode 0x287, pipe class A. -/
  | mzero (f : AForm)
  /-- MDRAIN (R412), opcode 0x288, pipe class A. -/
  | mdrain (f : AForm)
  /-- MREAD (R413), opcode 0x289, pipe class A. -/
  | mread (f : AForm)
  /-- SCALL (R428), opcode 0x300, pipe class C. -/
  | scall (f : IForm)
  /-- TRAP (R429), opcode 0x301, pipe class C. -/
  | trapI (f : IForm)
  /-- RTE (R430), opcode 0x302, pipe class C. -/
  | rte (f : VForm)
  /-- GETSR (R425), opcode 0x303, pipe class C. -/
  | getsr (f : IForm)
  /-- SETSR (R426), opcode 0x304, pipe class C. -/
  | setsr (f : IForm)
  /-- CNTRD (R427), opcode 0x305, pipe class C. -/
  | cntrd (f : VForm)
  /-- CNTRD_I (R427), opcode 0x345, pipe class C. -/
  | cntrdI (f : IForm)
  /-- BKPT (R429), opcode 0x306, pipe class C. -/
  | bkpt (f : IForm)
  /-- SIGRD (R431), opcode 0x307, pipe class C. -/
  | sigrd (f : VForm)
  /-- HALT (R360), opcode 0x308, pipe class C. -/
  | haltW (f : VForm)
  /-- CLOCK_RELOCK_DONE (R33). -/
  | clockRelockDone (i : Fin 40)
  /-- RINNOR_REQUEST_SEND (R43). -/
  | rinnorRequestSend (port : Fin 8) (id : Nat)
  /-- RINNOR_RESPONSE (R43). -/
  | rinnorResponse (port : Fin 8) (tag : Nat)
  /-- RINNOR_TIMEOUT (R44). -/
  | rinnorTimeout (port : Fin 8) (tag : Nat)
  /-- SOOTRD (R310). -/
  | sootrd (who : Who) (sect index : Nat)
  /-- EREAD (R313). -/
  | eread (who : Who) (subject : Nat)
  /-- PFRAMES_WRITE (R76). -/
  | pframesWrite (who : Who) (p : Nat) (v : W64)
  /-- TRCTL_WRITE (R304). -/
  | trctlWrite (who : Who) (p : Nat) (v : W64)
  /-- REGISTER_WRITE (R52). -/
  | registerWrite (who : Who) (r : CtlReg) (v : W64)
  /-- ALLOC (R90). -/
  | alloc (src : CallSrc) (count align fix : Nat)
  /-- FREE (R90). -/
  | freeCall (src : CallSrc) (first count : Nat)
  /-- MAP (R90). -/
  | mapCall (src : CallSrc) (va frame size : Nat) (attrs : W64)
  /-- UNMAP (R90). -/
  | unmap (src : CallSrc) (va len : Nat)
  /-- PROTECT (R90). -/
  | protect (src : CallSrc) (va len rd w xe : Nat)
  /-- LAZY (R90). -/
  | lazy (src : CallSrc) (va len : Nat) (attrs : W64)
  /-- QUERY (R90). -/
  | query (src : CallSrc) (p va : Nat)
  /-- QBIND (R90). -/
  | qbind (src : CallSrc) (kind cw : Nat)
  /-- RESTORE (R99). -/
  | restore (src : CallSrc) (gen va len : Nat)
  /-- QOPEN (R110). -/
  | qopen (src : CallSrc) (cw srcDev srcPart : Nat)
  /-- QCLOSE (R110). -/
  | qclose (src : CallSrc) (cw : Nat)
  /-- NVBIND (R112). -/
  | nvbind (src : CallSrc) (fn : BitVec 16) (cw cq cqLog bell : Nat)
  /-- NVFREE (R110). -/
  | nvfree (src : CallSrc) (cw : Nat)
  /-- NVFREE_ABORT (R110). -/
  | nvfreeAbort (space cw : Nat)
  /-- SALLOC (R177). -/
  | salloc (src : CallSrc) (die core count : Nat)
  /-- SFREE (R177). -/
  | sfree (src : CallSrc) (addr count : Nat)
  /-- GFREE (R189). -/
  | gfree (src : CallSrc) (serial : Nat)
  /-- GMAP (R189). -/
  | gmap (src : CallSrc) (serial srcVa dstVa len : Nat)
  /-- CALL_SERVE (R83). -/
  | callServe (space : Nat) (flt : Bool)
  /-- CALL_REPLY (R80). -/
  | callReply (space tag : Nat) (res : List W64)
  /-- CALL_RECORD_POST (R82). -/
  | callRecordPost (gid : Nat)
  /-- PAGE_RESOLVE (R96). -/
  | pageResolve (space page : Nat) (r : Resolution)
  /-- VICTIM_EVICT (R93). -/
  | victimEvict (q : Nat)
  /-- EPOCH_SCRUB (R57). -/
  | epochScrub (frame : Nat)
  /-- SECTOR_SCRUB (R296). -/
  | sectorScrub (sector : Nat)
  /-- COPY_ASIDE (R185). -/
  | copyAside (space page : Nat)
  /-- DRAIN_START (R186). -/
  | drainStart (p serial : Nat)
  /-- DRAIN_DONE (R186). -/
  | drainDone (p serial : Nat)
  /-- DRAIN_FAIL (R186). -/
  | drainFail (p serial : Nat)
  /-- DRAIN_RETRY (R186). -/
  | drainRetry (p serial : Nat) (ok : Bool)
  /-- LAUNCH_ACCEPT (R116). -/
  | launchAccept (space handle : Nat)
  /-- DISPATCH (R132). -/
  | dispatch (die core laneBase : Nat)
  /-- LAUNCH_BLOCKING (R132). -/
  | launchBlocking (id : Nat)
  /-- LAUNCH_END (R122). -/
  | launchEnd (id : Nat)
  /-- SIGNATURE_CHECK (R307). -/
  | signatureCheck (id : Nat)
  /-- SLICE_END (R145). -/
  | sliceEnd (space core : Nat)
  /-- PARTITION_HALT (R146). -/
  | partitionHalt (space core : Nat)
  /-- GROUP_RESUME (R149). -/
  | groupResume (space core : Nat) (sealOk : Bool)
  /-- NOPRE_EXPIRY (R150). -/
  | nopreExpiry (gid : Nat)
  /-- INFIELD_TEST (R151). -/
  | infieldTest (cluster : Fin 32)
  /-- INFIELD_TEST_DONE (R299). -/
  | infieldTestDone (cluster : Fin 32) (pass : Bool)
  /-- UNCORRECTABLE_ERROR (R297). -/
  | uncorrectableError (id : Nat)
  /-- REPORT_DELIVERY (R293). -/
  | reportDelivery (tid : Nat)
  /-- LOAD_FILL (R162). -/
  | loadFill (id : Nat)
  /-- STORE_RESOLVE (R291). -/
  | storeResolve (id : Nat)
  /-- PACKET_APPEND (R105). -/
  | packetAppend (space handle : Nat)
  /-- NETWORK_SEND (R111). -/
  | networkSend (space handle : Nat) (accepted : Bool)
  /-- NETWORK_RECEIVE (R111). -/
  | networkReceive (handle srcDev srcPart : Nat) (space : Nat) (entry : List Byte)
  /-- COLLECTIVE_START (R270). -/
  | collectiveStart (id : Nat)
  /-- ELEMENT_LANDING (R271). -/
  | elementLanding (id k : Nat)
  /-- COPY_FAULT_REPORT (R277). -/
  | copyFaultReport (id : Nat)
  /-- MATRIX_OP_EXECUTE (R262). -/
  | matrixOpExecute (core : Nat) (checkOk : Bool)
  /-- PIN_SEARCH_DONE (R223). -/
  | pinSearchDone (id : Nat)
  /-- RECLAIM_RESEARCH (R220). -/
  | reclaimResearch (space name : Nat)
  /-- RECLAIM_COMPLETION_POST (R221). -/
  | reclaimCompletionPost (space name : Nat)
  /-- SLEEP_WAKE (R369). -/
  | sleepWake (tid : Nat)
  /-- YIELD_READY (R368). -/
  | yieldReady (tid : Nat)
  /-- SIGRD_REPORT_DONE (R431). -/
  | sigrdReportDone (tid : Nat)
  /-- ENERGY_INTERVAL (R311): the energy measured on an island for a row of the rule's table, in millionths of a µJ. -/
  | energyInterval (island row amount : Nat)
  /-- SOOT_UPDATE (R310). -/
  | sootUpdate
  /-- TRACE_LOSS (R305). -/
  | traceLoss (p : Nat)
  /-- LINK_RETRAIN_DONE (R40). -/
  | linkRetrainDone (k : Fin 17)
  /-- POWER_LOSS (R310). -/
  | powerLoss
  /-- PARTITION_CREATE (R76). -/
  | partitionCreate (p : Nat)
  /-- MIGRATION_FAILURE_REPORT (R66). -/
  | migrationFailureReport (p : Nat)
  /-- POWER_ON (R34). -/
  | powerOn (passed : BitVec 32)
  /-- DEVICE_RESET (R34). -/
  | deviceReset (passed : BitVec 32)
  /-- STAGE_HOST_ATTACH (R34). -/
  | stageHostAttach
  /-- STAGE_EMBER (R35). -/
  | stageEmber
  /-- STACK_TRAINING_FAIL (R37). -/
  | stackTrainingFail (d : Fin 4)
  /-- STAGE_FULL_COMPUTE (R36). -/
  | stageFullCompute
  /-- STAGE_FULL_SERVICE (R34). -/
  | stageFullService (fns : List PciFn)
  /-- THERMAL_RISE (R31). -/
  | thermalRise (i : Fin 40)
  /-- THERMAL_FALL (R31). -/
  | thermalFall (i : Fin 40)
  /-- ISLOP_WRITE (R32). -/
  | islopWrite (who : Who) (i : Fin 40) (v : W64)
  /-- LINK_FLIT_RETRY (R39). -/
  | linkFlitRetry (k : Fin 17)
  /-- LINK_RATE_DROP (R40). -/
  | linkRateDrop (k : Fin 17) (margin : EyeEstimate)
  /-- LINK_UPREQ (R40). -/
  | linkUpreq (who : Who) (k : Fin 17) (pass : Bool)
  /-- LINK_DOWN (R41). -/
  | linkDown (k : Fin 17)
  /-- HOST_REQUEST (R45). -/
  | hostRequest (window : Nat) (r : PortReq)
  /-- STORAGE_INBOUND_REQUEST (R47). -/
  | storageInboundRequest (fn : BitVec 16) (r : PortReq)
  /-- SESSION_OPEN (R59). -/
  | sessionOpen (who : Who) (window : Nat) (sigOk : Bool) (key nonce : List Byte)
  /-- SESSION_MESSAGE (R59). -/
  | sessionMessage (window : Nat) (tagOk : Bool)
  /-- ATTESTATION_REQUEST (R71). -/
  | attestationRequest (who : Who) (subject : Nat) (nonce : List Byte)
  /-- NOTICES (R435). -/
  | notices (who : Who) (count : Nat)
  /-- RESET (R63). -/
  | resetPart (who : Who) (p : Nat)
  /-- MIGRATE (R66). -/
  | migrate (who : Who) (p : Nat) (chainOk digestsEqual : Bool)
  /-- MIGRATION_FREEZE (R66). -/
  | migrationFreeze (p : Nat)
  /-- MIGRATION_ARRIVAL (R66). -/
  | migrationArrival (k : Nat) (sigOk : Bool)
  /-- POST_COPY_PULL (R97). -/
  | postCopyPull (p page : Nat) (data : List Byte) (digestOk : Bool)
  /-- POST_COPY_PULL_FAIL (R98). -/
  | postCopyPullFail (p : PullEnd)
  /-- PREEMPT (R145). -/
  | preempt (who : Who) (p core : Nat)
  /-- KINDLING_REBIND (R74). -/
  | kindlingRebind (who : Who) (core : Fin 64) (qset : KindSet)
  /-- OWNERSHIP_QUERY (R89). -/
  | ownershipQuery (who : Who) (frame : Nat)
  /-- REGRD (R167). -/
  | regrd (who : Who) (die core slot cls thread number : Nat)
  /-- REGWR (R167). -/
  | regwr (who : Who) (die core slot cls thread number : Nat) (v : W64)
  /-- STOP (R308). -/
  | stopWg (who : Who) (die core slot addr len : Nat)
  /-- RESUME (R308). -/
  | resumeWg (who : Who) (die core slot : Nat)
  deriving DecidableEq, Repr, Inhabited

end Sys2Proof
end

