-- ==== Sys2Proof/WellFormed.lean ====
section
/-! DEFINITION. Well-formed instructions: every check of an encoding that does not depend on the launch or the group
(R18, R157, R324 to R334, R335 steps 4 and 5, and the operand tables of the instruction chapters). A word that breaks one
raises ILLEGAL_FIELD. What depends on the group (undeclared registers, the predicate class, levels) is checked at issue. -/
namespace Sys2Proof

/-- An unused operand field, 0x000 (R18). -/
def Operand.unused (o : Operand) : Bool := o == .v 0
/-- An omitted operand, 0x200 (R18, R403). -/
def Operand.omitted (o : Operand) : Bool := o == .p 0
def Operand.isV : Operand → Bool | .v _ => true | _ => false
def Operand.isG : Operand → Bool | .g _ => true | _ => false
def Operand.isP : Operand → Bool | .p _ => true | _ => false
def Operand.isT : Operand → Bool | .t _ => true | _ => false
def Operand.isA : Operand → Bool | .a _ => true | _ => false
def Operand.isPin : Operand → Bool | .pin _ => true | _ => false
def Operand.isW : Operand → Bool | .w _ _ => true | _ => false
/-- A vector register whose number is a multiple of `m` (R157). -/
def Operand.vMul (m : Nat) : Operand → Bool | .v n => n.toNat % m == 0 | _ => false
/-- A uniform register whose number is a multiple of `m` (R388, R404). -/
def Operand.gMul (m : Nat) : Operand → Bool | .g n => n.toNat % m == 0 | _ => false
def Operand.vg (o : Operand) : Bool := o.isV || o.isG
/-- A destination of 64 bits: a uniform register or an even vector pair (R157). -/
def Operand.vg64 (o : Operand) : Bool := o.isG || o.vMul 2
/-- A source in a 32-bit position (R18). -/
def Operand.src32 (o : Operand) : Bool := o.isV || o.isG || o.isW
/-- A source in a 64-bit position (R18, R157): a parameter word there has N at most 30. -/
def Operand.src64 : Operand → Bool
  | .v n => n.toNat % 2 == 0
  | .g _ => true
  | .w _ n => n.toNat ≤ 30
  | _ => false
/-- A source at width 64 when `wide`, else 32 (R343). -/
def Operand.srcAt (wide : Bool) (o : Operand) : Bool := if wide then o.src64 else o.src32
/-- The base of a memory operand (R20). -/
def Operand.base : Operand → Bool
  | .g _ => true
  | .w _ n => n.toNat ≤ 30
  | _ => false
/-- The index of a memory operand, or none (R20). -/
def Operand.idxOrNone (o : Operand) : Bool := o.isV || o.omitted
def Operand.isReg (o : Operand) : Bool := o.isV || o.isG || o.isP

/-- Header checks (R324): an empty-behaviour bit stands only at a register source, ARM only where R22 allows it, and
ATOK is 0 without ARM. `a`, `b`, `c` are the sources of those positions, `none` where the instruction has none. -/
def hdrOk (h : Header) (arms : Bool) (a b c : Option Operand) : Bool :=
  (!h.eb.getLsbD 0 || a.any Operand.isReg) && (!h.eb.getLsbD 1 || b.any Operand.isReg) &&
  (!h.eb.getLsbD 2 || c.any Operand.isReg) && (!h.arm || arms) && (h.arm || h.atok == 0)

/-- The modifier sets an instruction accepts; a set it does not name must be 0 (R328). -/
structure Mods where
  sel : BitVec 4 → Bool := fun x => x == 0
  rnd : BitVec 3 → Bool := fun x => x == 0
  sat : Bool := false
  dfmt : BitVec 4 → Bool := fun x => x == 0
  sfmt : BitVec 4 → Bool := fun x => x == 0

def selLe (n : Nat) (x : BitVec 4) : Bool := x.toNat ≤ n
def rndAny (x : BitVec 3) : Bool := x.toNat ≤ 4

/-- A V-format instruction with sources A, B, C as used. -/
def vOk (f : VForm) (m : Mods) (d a b c : Operand → Bool) (usesA usesB usesC : Bool) : Bool :=
  hdrOk f.h false (if usesA then some f.a else none) (if usesB then some f.b else none) (if usesC then some f.c else none) &&
  d f.d && a f.a && b f.b && c f.c && m.sel f.sel && m.rnd f.rnd && (m.sat || !f.sat) && m.dfmt f.dfmt && m.sfmt f.sfmt

def iOk (f : IForm) (m : Mods) (arms : Bool) (d a : Operand → Bool) (usesA : Bool) : Bool :=
  hdrOk f.h arms (if usesA then some f.a else none) none none &&
  d f.d && a f.a && m.sel f.sel && m.rnd f.rnd && (m.sat || !f.sat) && m.dfmt f.dfmt

def z : Operand → Bool := Operand.unused
def off : BitVec 4 → Bool := fun x => x == 0

/-- Width 64 when the destination is a uniform register (R343). -/
def VForm.wide (f : VForm) : Bool := f.d.isG
def IForm.wide (f : IForm) : Bool := f.d.isG

/-- One destination and one to three sources at width W (R342, R343). -/
def intV1 (f : VForm) (m : Mods) : Bool := vOk f m Operand.vg (Operand.srcAt f.wide) z z true false false
def intV2 (f : VForm) (m : Mods) : Bool := vOk f m Operand.vg (Operand.srcAt f.wide) (Operand.srcAt f.wide) z true true false
def intV3 (f : VForm) (m : Mods) : Bool :=
  vOk f m Operand.vg (Operand.srcAt f.wide) (Operand.srcAt f.wide) (Operand.srcAt f.wide) true true true
def intI (f : IForm) (m : Mods) : Bool := iOk f m false Operand.vg (Operand.srcAt f.wide) true

/-- Float forms (R372). -/
def fltV1 (f : VForm) (m : Mods) : Bool := vOk f m Operand.vg Operand.src32 z z true false false
def fltV2 (f : VForm) (m : Mods) : Bool := vOk f m Operand.vg Operand.src32 Operand.src32 z true true false
def fltV3 (f : VForm) (m : Mods) : Bool := vOk f m Operand.vg Operand.src32 Operand.src32 Operand.src32 true true true
def fltI (f : IForm) (m : Mods) : Bool := iOk f m false Operand.vg Operand.src32 true

def mRnd : Mods := { rnd := rndAny, sat := true }
def fcond (x : BitVec 4) : Bool := x.toNat ≤ 5 || x == 10 || x == 11

/-- Predicate forms (R355). -/
def prdV1 (f : VForm) : Bool := vOk f {} Operand.isP Operand.isP z z true false false
def prdV2 (f : VForm) : Bool := vOk f {} Operand.isP Operand.isP Operand.isP z true true false
/-- A V-format instruction with every field zero. -/
def nullV (f : VForm) (m : Mods) : Bool := vOk f m z z z z false false false

/-- An M-format instruction: SIZE, ORD, SCOPE and SUBOP sets, and whether DATA is read (R387). -/
def mOk (f : MForm) (data base idx : Operand → Bool) (usesBase usesIdx readsData : Bool) (size : Nat → Bool) (ord : Nat → Bool)
    (scope : Nat → Bool) (subop : Nat → Bool) : Bool :=
  hdrOk f.h false (if usesBase then some f.base else none)
    (if usesIdx && f.idx.isV then some f.idx else none) (if readsData then some f.data else none) &&
  data f.data && base f.base && idx f.idx && size f.size.toNat && ord f.ord.toNat && scope f.scope.toNat && subop f.subop.toNat

/-- Registers of an access of the given SIZE code: vN aligned to its words (R157, R325). -/
def dataV (size : BitVec 3) : Operand → Bool := Operand.vMul (2 ^ (size.toNat - 2))
/-- A uniform DATA of 128 or 256 bits takes 2 or 4 registers (R388). -/
def dataG (size : BitVec 3) : Operand → Bool := Operand.gMul (2 ^ (size.toNat - 3))
def ordLd (n : Nat) : Bool := n ≤ 1
def ordSt (n : Nat) : Bool := n == 0 || n == 2
def any6 (n : Nat) : Bool := n ≤ 6
def is0 (n : Nat) : Bool := n == 0
def anyN (_ : Nat) : Bool := true

def AForm.modZ (f : AForm) : Bool := f.lo == 0 && !f.sat && f.pw == 0 && !f.poll
/-- An A-format instruction (R403, R404): register forms hold IMM16 0, immediate forms hold B 0x000. -/
def aOk (f : AForm) (arms imm : Bool) (res a b c : Operand → Bool) (srcA srcB srcC : Bool) (mods : Bool) : Bool :=
  hdrOk f.h arms (if srcA then some f.a else none) (if srcB && !imm then some f.b else none) (if srcC then some f.c else none) &&
  res f.res && a f.a && (if imm then f.b.unused else b f.b && f.imm16 == 0) && c f.c && mods
def opt64 (o : Operand) : Bool := o.src64 || o.omitted

/-- The formats CVT accepts, by code (R332, R381): width in bits. -/
def cvtWidth (c : BitVec 4) : Option Nat :=
  match c.toNat with
  | 0 | 1 => some 16
  | 2 | 3 | 4 => some 8
  | 9 | 11 | 12 => some 32
  | _ => none
def cvtInt (c : BitVec 4) : Bool := c == 4 || c == 11 || c == 12
/-- Format pairs and element selectors of CVT (R381, R383). -/
def cvtOk (f : VForm) : Bool :=
  match cvtWidth f.dfmt, cvtWidth f.sfmt with
  | some _, some w =>
    f.dfmt != f.sfmt && !(cvtInt f.dfmt && cvtInt f.sfmt) &&
    (!(f.sfmt == 11 || f.sfmt == 12) || f.dfmt == 9 || f.dfmt == 0) &&
    f.sel.toNat < 32 / w
  | _, _ => false

/-- The special registers of R423, with their width in bits. -/
def srWidth (n : Nat) : Option Nat :=
  if n ≤ 3 || (8 ≤ n && n ≤ 0x14) && n != 0x15 then some 32
  else if (0x18 ≤ n && n ≤ 0x1B) || (0x21 ≤ n && n ≤ 0x25) || n == 0x28 || n == 0x29 || n == 0x2B then some 64
  else if n == 0x20 || n == 0x26 || n == 0x2A then some 32
  else none

/-- SCALL's immediate (R428). -/
def scallNres (imm : W32) : Nat := imm.toNat / 2 ^ 19 % 8
def scallNarg (imm : W32) : Nat := imm.toNat / 2 ^ 16 % 8
def scallNo (imm : W32) : Nat := imm.toNat % 2 ^ 16
def scallOk (f : IForm) : Bool :=
  iOk f {} true (if scallNres f.imm == 0 then z else Operand.isG) (if scallNarg f.imm == 0 then z else Operand.isG)
    (scallNarg f.imm != 0) &&
  f.imm.toNat < 2 ^ 22 && scallNres f.imm ≤ 4 && scallNarg f.imm ≤ 5 &&
  (match f.d with | .g n => n.toNat + scallNres f.imm ≤ 64 | _ => true) &&
  (match f.a with | .g n => n.toNat + scallNarg f.imm ≤ 64 | _ => true)

def voteOk (f : VForm) : Bool :=
  match f.sel.toNat with
  | 0 | 1 => f.d.isP && f.a.isP
  | 2 => f.d.isG && f.a.isP
  | 3 => f.d.isP && f.a.isV
  | _ => false

def atomData (f : MForm) : Bool :=
  let cas := f.subop == 9
  f.data.vMul ((if f.size == 3 then 2 else 1) * (if cas then 2 else 1))

/-- Whether an instruction is well formed. The operations and events of the device have no encoding to check. That SCL may hold anything
where the index is omitted (always so in LDU, STU and QCTL), and that FENCE refuses SCL and OFS, is the model's choice (log 56). -/
def Instr.wf : Instr → Bool
  | .invalid f => f == default
  | .nop f => nullV f {}
  | .iadd f | .isub f => intV2 f { sat := true }
  | .iaddI f | .isubI f => intI f { sat := true }
  | .imul f => intV2 f {}
  | .imulI f => intI f {}
  | .imulh f | .imin f | .imax f => intV2 f { sel := selLe 1 }
  | .imulhI f | .iminI f | .imaxI f => intI f { sel := selLe 1 }
  | .imad f => intV3 f {}
  | .iaddc f => vOk f {} Operand.vg (Operand.srcAt f.wide) (Operand.srcAt f.wide) Operand.isP true true true
  | .iabs f | .ineg f => intV1 f { sat := true }
  | .icmp f => vOk f { sel := selLe 9 } Operand.isP (Operand.srcAt f.a.isG) (Operand.srcAt f.a.isG) z true true false
  | .icmpI f => iOk f { sel := selLe 9 } false Operand.isP (Operand.srcAt f.a.isG) true
  | .andB f | .orB f | .xorB f | .andnB f | .shl f | .shr f | .sar f | .rol f => intV2 f {}
  | .andBI f | .orBI f | .xorBI f | .andnBI f | .shlI f | .shrI f | .sarI f | .rolI f => intI f {}
  | .notB f | .clz f | .popc f | .brev f | .mov f => intV1 f {}
  | .bfe f => intV3 f { sel := selLe 1 }
  | .bfi f => intV3 f {}
  | .sel f => vOk f {} Operand.vg (Operand.srcAt f.wide) (Operand.srcAt f.wide) Operand.isP true true true
  | .lea f => mOk f Operand.vg64 Operand.base Operand.idxOrNone true true false is0 is0 is0 is0
  | .iaddw f => vOk f { sel := selLe 1 } Operand.vg64 Operand.src64 Operand.src32 z true true false
  | .sext f | .zext f => intV1 f { sel := selLe 4 }
  | .movi f => iOk f {} false Operand.vg z false
  | .movu f => iOk f {} false Operand.isG z false
  | .fadd f | .fsub f | .fmul f | .fdiv f | .hadd2 f | .hmul2 f | .fscale f => fltV2 f mRnd
  | .faddI f | .fsubI f | .fmulI f | .fscaleI f => fltI f mRnd
  | .ffma f | .hfma2 f => fltV3 f mRnd
  | .fmin f | .fmax f => fltV2 f {}
  | .fminI f | .fmaxI f => fltI f {}
  | .fcmp f => vOk f { sel := fcond } Operand.isP Operand.src32 Operand.src32 z true true false
  | .fcmpI f => iOk f { sel := fcond } false Operand.isP Operand.src32 true
  | .fclass f =>
    if f.d.isP then vOk f {} Operand.isP Operand.src32 Operand.src32 z true true false else fltV1 f {}
  | .frnd f => fltV1 f { rnd := fun r => rndAny r && r != 1 }
  | .frcp f | .fsqrt f => fltV1 f mRnd
  | .frsq f | .fexp2 f | .flog2 f | .fsin f | .fcos f | .ftanh f => fltV1 f {}
  | .hmax2 f => fltV2 f { sel := selLe 1 }
  | .cvt f => fltV1 f { sel := fun _ => true, rnd := rndAny, sat := true, dfmt := fun _ => true, sfmt := fun _ => true } && cvtOk f
  | .packb f => fltV2 f { sel := selLe 3 }
  | .unpackb f => fltV1 f { sel := selLe 1 }
  | .pand f | .por f | .pxor f | .pany f | .pall f => prdV2 f
  | .pnot f | .pmov f => prdV1 f
  | .bra f => hdrOk f.h false none none none && f.opnd.unused && f.mod.toNat ≤ 2 && f.tslot.toNat ≤ 4
  | .brx f => hdrOk f.h false none none none && f.opnd.vg64 && f.mod == 0 && f.lofs == 0 && f.tslot == 0
  | .call f => hdrOk f.h false none none none && f.opnd.vMul 2 && f.mod == 0 && f.tslot.toNat ≤ 4
  | .ret f => hdrOk f.h false none none none && f.opnd.vMul 2 && f.mod == 0 && f.lofs == 0 && f.tslot == 0
  | .exitT f | .yield f | .nopre f | .preok f | .rte f => nullV f {}
  | .bar f => iOk f {} false z z false && f.imm != 0
  | .elect f => vOk f {} Operand.isP z z z false false false
  | .vote f => vOk f { sel := selLe 3 } (fun _ => true) (fun _ => true) z z true false false && voteOk f
  | .shfl f => vOk f { sel := selLe 3 } Operand.isV Operand.isV Operand.src32 z true true false
  | .shflI f => iOk f { sel := selLe 3 } false Operand.isV Operand.isV true
  | .greduce f => vOk f { sel := selLe 10 } Operand.vg Operand.isV z z true false false
  | .sleep f => iOk f {} false z z false
  | .ld f => mOk f (dataV f.size) Operand.base Operand.idxOrNone true true false (· ≤ 5) ordLd any6 anyN
  | .st f => mOk f (dataV f.size) Operand.base Operand.idxOrNone true true true (· ≤ 5) ordSt any6 is0
  | .ldn f => mOk f (dataV f.size) Operand.base (dataV f.size) true true false (fun n => 3 ≤ n && n ≤ 5) ordLd any6 anyN
  | .stn f => mOk f (dataV f.size) Operand.base (dataV f.size) true true true (fun n => 3 ≤ n && n ≤ 5) ordSt any6 is0
  | .ldu f => mOk f (dataG f.size) Operand.base Operand.omitted true false false (· ≤ 5) ordLd any6 anyN
  | .stu f => mOk f (dataG f.size) Operand.base Operand.omitted true false true (· ≤ 5) ordSt any6 is0
  | .ldparam f =>
    mOk f (fun o => dataV f.size o || (o.isG && f.size.toNat ≤ 3)) Operand.isW Operand.idxOrNone false true false
      (fun n => 2 ≤ n && n ≤ 5) is0 is0 anyN
  | .pagereq f => mOk f z Operand.base Operand.idxOrNone true true false is0 is0 is0 is0
  | .atom f => mOk f (fun _ => atomData f) Operand.base Operand.idxOrNone true true true (fun n => n == 2 || n == 3) anyN any6 (· ≤ 9)
  | .atomf f => mOk f Operand.isV Operand.base Operand.idxOrNone true true true (· == 2) anyN any6 (· ≤ 2)
  | .red f => mOk f (fun _ => atomData f) Operand.base Operand.idxOrNone true true true (fun n => n == 2 || n == 3) anyN any6 (· ≤ 7)
  | .fence f => mOk f z z Operand.omitted false false false is0 (· != 0) any6 is0 && f.scl == 0 && f.ofs == 0
  | .acqr f => mOk f (dataV f.size) Operand.base Operand.idxOrNone true true false (fun n => n == 2 || n == 3) (· == 1) (· == 5) anyN
  | .qctl f => mOk f Operand.vg64 Operand.base Operand.omitted true false false is0 is0 is0 (· ≤ 4)
  | .drainst f => nullV f { sel := selLe 1 }
  | .pin f => vOk f {} Operand.isPin Operand.src64 z z true false false
  | .unpin f => vOk f {} Operand.isPin z z z false false false
  | .reclaim f => vOk f {} Operand.isV Operand.src64 z z true false false
  | .reclwait f => vOk f { sel := selLe 1 } (Operand.vMul 8) Operand.isP z z false false false
  | .snap f => vOk f {} Operand.vg64 z z z false false false
  | .snapq f => vOk f {} Operand.vg64 Operand.src32 z z true false false
  | .copy f | .gcopy f => aOk f true false z Operand.src64 opt64 Operand.src32 true f.b.src64 true f.modZ
  | .binit f => aOk f false false z Operand.src64 Operand.src32 z true true false
      (2 ≤ f.lo.toNat && f.lo.toNat ≤ 5 && !f.sat && f.pw == 0 && !f.poll)
  | .binitI f => aOk f false true z Operand.src64 z z true true false
      (2 ≤ f.lo.toNat && f.lo.toNat ≤ 5 && !f.sat && f.pw == 0 && !f.poll)
  | .arrive f | .waitphase f => aOk f false false z Operand.src64 Operand.src32 z true true false f.modZ
  | .arriveI f | .waitphaseI f => aOk f false true z Operand.src64 z z true true false f.modZ
  | .testphase f => aOk f false false Operand.isP Operand.src64 Operand.src32 z true true false f.modZ
  | .testphaseI f => aOk f false true Operand.isP Operand.src64 z z true true false f.modZ
  | .tokwait f =>
    aOk f false false (if f.poll then Operand.vg else z) z (if f.poll then z else Operand.src32) z false (!f.poll) false
      (f.lo == 0 && !f.sat && f.pw == 0)
  | .tfill f | .tempty f | .cretry f | .cskip f => aOk f false false z Operand.src64 z z true false false f.modZ
  | .twait f => aOk f false false (if f.poll then Operand.isP else z) Operand.src64 z z true false false
      (f.lo == 0 && !f.sat && f.pw == 0)
  | .tres f => aOk f false false Operand.isT (fun o => o.vMul 8 || o.gMul 4) z z true false false f.modZ
  | .trel f => aOk f false false Operand.isT z z z false false false f.modZ
  | .tload f => aOk f false false Operand.isT Operand.src64 opt64 z true f.b.src64 false f.modZ
  | .mloadw f => aOk f true false z Operand.isT Operand.src32 z false true false (f.lo == 0 && !f.sat && !f.poll)
  | .mloadwI f => aOk f true true z Operand.isT z z false true false (f.lo == 0 && !f.sat && !f.poll)
  | .mswap f => aOk f false false z z z z false false false f.modZ
  | .mma f => aOk f true false z Operand.src64 z z true false false f.modZ
  | .mhad f => aOk f true false Operand.isT Operand.isT Operand.src32 z false true false f.modZ
  | .mhadI f => aOk f true true Operand.isT Operand.isT z z false true false f.modZ
  | .mzero f => aOk f false false Operand.isA z z z false false false f.modZ
  | .mdrain f => aOk f true false z Operand.isA Operand.src64 Operand.src32 false true true
      ((f.lo.toNat ≤ 4 || f.lo == 9) && f.pw == 0 && !f.poll)
  | .mread f => aOk f false false (Operand.vMul 4) Operand.isA Operand.src32 z false true false f.modZ
  | .scall f => scallOk f
  | .trapI f | .bkpt f => iOk f {} false z z false
  | .getsr f =>
    match srWidth f.imm.toNat with
    | some 32 => iOk f {} false Operand.vg z false
    | some _ => iOk f {} false Operand.vg64 z false
    | none => false
  | .setsr f =>
    match srWidth f.imm.toNat with
    | some 32 => iOk f {} false z Operand.src32 true
    | some _ => iOk f {} false z Operand.src64 true
    | none => false
  | .cntrd f => vOk f {} Operand.vg64 Operand.src32 z z true false false
  | .cntrdI f => iOk f {} false Operand.vg64 z false
  | .sigrd f => vOk f { sel := selLe 1 } z Operand.src64 Operand.src64 z true true false
  | .haltW f => vOk f {} z Operand.src64 Operand.src32 z true true false
  | .powerOn .. | .deviceReset .. | .stageHostAttach | .stageEmber | .stackTrainingFail .. | .stageFullCompute
  | .stageFullService .. | .thermalRise .. | .thermalFall .. | .clockRelockDone .. | .islopWrite .. | .linkFlitRetry ..
  | .linkRateDrop .. | .linkUpreq .. | .linkDown .. | .rinnorRequestSend .. | .rinnorResponse .. | .rinnorTimeout ..
  | .hostRequest .. | .storageInboundRequest .. | .sessionOpen .. | .sessionMessage .. | .attestationRequest .. | .notices ..
  | .resetPart .. | .migrate .. | .migrationFreeze .. | .migrationArrival .. | .postCopyPull .. | .postCopyPullFail ..
  | .preempt .. | .kindlingRebind .. | .ownershipQuery .. | .regrd .. | .regwr .. | .stopWg .. | .resumeWg .. | .sootrd ..
  | .eread .. | .pframesWrite .. | .trctlWrite .. | .registerWrite .. | .alloc .. | .freeCall .. | .mapCall .. | .unmap ..
  | .protect .. | .lazy .. | .query .. | .qbind .. | .restore .. | .qopen .. | .qclose .. | .nvbind .. | .nvfree ..
  | .nvfreeAbort .. | .salloc .. | .sfree .. | .gfree .. | .gmap .. | .callServe .. | .callReply .. | .callRecordPost ..
  | .pageResolve .. | .victimEvict .. | .epochScrub .. | .sectorScrub .. | .copyAside .. | .drainStart .. | .drainDone ..
  | .drainFail .. | .drainRetry .. | .launchAccept .. | .dispatch .. | .launchBlocking .. | .launchEnd .. | .signatureCheck ..
  | .sliceEnd .. | .partitionHalt .. | .groupResume .. | .nopreExpiry .. | .infieldTest .. | .infieldTestDone ..
  | .uncorrectableError .. | .reportDelivery .. | .loadFill .. | .storeResolve .. | .packetAppend .. | .networkSend ..
  | .networkReceive .. | .collectiveStart .. | .elementLanding .. | .copyFaultReport .. | .matrixOpExecute .. | .pinSearchDone ..
  | .reclaimResearch .. | .reclaimCompletionPost .. | .sleepWake .. | .yieldReady .. | .sigrdReportDone .. | .energyInterval ..
  | .sootUpdate | .traceLoss .. | .linkRetrainDone .. | .powerLoss | .partitionCreate .. | .migrationFailureReport .. => true

end Sys2Proof
end

