-- ==== Sys2Proof/Decode.lean ====
section
/-! DEFINITION. The decoder of the 96-bit instruction word, total on every word (R324 to R341), and after it the encoder
written from the same tables. A word is held as a natural number, bit 0 its least significant bit (R315). -/
namespace Sys2Proof

/-- Bits [lo + n - 1 : lo] of a word. -/
def fld (w lo n : Nat) : Nat := w / 2 ^ lo % 2 ^ n

/-- Why a word is no instruction that may act (R335): its opcode is unallocated (R338), or a field breaks a check. -/
inductive Reject where
  | illegalOp
  | illegalField
  deriving DecidableEq, Repr

/-- The five payload formats (R325). -/
inductive Fmt where
  | v | i | m | b | a
  deriving DecidableEq, Repr

/-- The four pipe classes (R320). -/
inductive Pipe where
  | v | m | a | c
  deriving DecidableEq, Repr

/-- The fields of an instruction besides its opcode, in one of the five formats. -/
inductive Payload where
  | v (f : VForm)
  | i (f : IForm)
  | m (f : MForm)
  | b (f : BForm)
  | a (f : AForm)
  deriving DecidableEq, Repr

/-- A row of the Opcode Map: format, pipe class, and whether an auditor kernel may issue it (R337, R339, R340). -/
structure OpRow where
  fmt : Fmt
  pipe : Pipe
  auditor : Bool
  deriving DecidableEq, Repr

/-- The Opcode Map (R337): every allocated opcode but INVALID, which never reaches its payload (R338). -/
def opRow (opc : Nat) : Option OpRow :=
  match opc with
  | 0x001 => some ⟨.v, .c, true⟩
  | 0x002 => some ⟨.v, .v, true⟩
  | 0x003 => some ⟨.v, .v, true⟩
  | 0x004 => some ⟨.v, .v, true⟩
  | 0x005 => some ⟨.v, .v, true⟩
  | 0x006 => some ⟨.v, .v, true⟩
  | 0x007 => some ⟨.v, .v, true⟩
  | 0x008 => some ⟨.v, .v, true⟩
  | 0x009 => some ⟨.v, .v, true⟩
  | 0x00A => some ⟨.v, .v, true⟩
  | 0x00B => some ⟨.v, .v, true⟩
  | 0x00C => some ⟨.v, .v, true⟩
  | 0x00D => some ⟨.v, .v, true⟩
  | 0x00E => some ⟨.v, .v, true⟩
  | 0x00F => some ⟨.v, .v, true⟩
  | 0x010 => some ⟨.v, .v, true⟩
  | 0x011 => some ⟨.v, .v, true⟩
  | 0x012 => some ⟨.v, .v, true⟩
  | 0x013 => some ⟨.v, .v, true⟩
  | 0x014 => some ⟨.v, .v, true⟩
  | 0x015 => some ⟨.v, .v, true⟩
  | 0x016 => some ⟨.v, .v, true⟩
  | 0x017 => some ⟨.v, .v, true⟩
  | 0x018 => some ⟨.v, .v, true⟩
  | 0x019 => some ⟨.v, .v, true⟩
  | 0x01A => some ⟨.v, .v, true⟩
  | 0x01B => some ⟨.v, .v, true⟩
  | 0x01C => some ⟨.m, .v, true⟩
  | 0x01D => some ⟨.v, .v, true⟩
  | 0x01E => some ⟨.v, .v, true⟩
  | 0x01F => some ⟨.v, .v, true⟩
  | 0x020 => some ⟨.v, .v, true⟩
  | 0x042 => some ⟨.i, .v, true⟩
  | 0x043 => some ⟨.i, .v, true⟩
  | 0x044 => some ⟨.i, .v, true⟩
  | 0x045 => some ⟨.i, .v, true⟩
  | 0x048 => some ⟨.i, .v, true⟩
  | 0x049 => some ⟨.i, .v, true⟩
  | 0x04C => some ⟨.i, .v, true⟩
  | 0x04D => some ⟨.i, .v, true⟩
  | 0x04E => some ⟨.i, .v, true⟩
  | 0x04F => some ⟨.i, .v, true⟩
  | 0x050 => some ⟨.i, .v, true⟩
  | 0x052 => some ⟨.i, .v, true⟩
  | 0x053 => some ⟨.i, .v, true⟩
  | 0x054 => some ⟨.i, .v, true⟩
  | 0x055 => some ⟨.i, .v, true⟩
  | 0x060 => some ⟨.i, .v, true⟩
  | 0x061 => some ⟨.i, .v, true⟩
  | 0x080 => some ⟨.v, .v, true⟩
  | 0x081 => some ⟨.v, .v, true⟩
  | 0x082 => some ⟨.v, .v, true⟩
  | 0x083 => some ⟨.v, .v, true⟩
  | 0x084 => some ⟨.v, .v, true⟩
  | 0x085 => some ⟨.v, .v, true⟩
  | 0x086 => some ⟨.v, .v, true⟩
  | 0x087 => some ⟨.v, .v, true⟩
  | 0x088 => some ⟨.v, .v, true⟩
  | 0x089 => some ⟨.v, .v, true⟩
  | 0x08A => some ⟨.v, .v, true⟩
  | 0x08B => some ⟨.v, .v, true⟩
  | 0x08C => some ⟨.v, .v, true⟩
  | 0x08D => some ⟨.v, .v, true⟩
  | 0x08E => some ⟨.v, .v, true⟩
  | 0x08F => some ⟨.v, .v, true⟩
  | 0x090 => some ⟨.v, .v, true⟩
  | 0x091 => some ⟨.v, .v, true⟩
  | 0x092 => some ⟨.v, .v, true⟩
  | 0x093 => some ⟨.v, .v, true⟩
  | 0x094 => some ⟨.v, .v, true⟩
  | 0x095 => some ⟨.v, .v, true⟩
  | 0x096 => some ⟨.v, .v, true⟩
  | 0x097 => some ⟨.v, .v, true⟩
  | 0x098 => some ⟨.v, .v, true⟩
  | 0x099 => some ⟨.v, .v, true⟩
  | 0x0C0 => some ⟨.i, .v, true⟩
  | 0x0C1 => some ⟨.i, .v, true⟩
  | 0x0C2 => some ⟨.i, .v, true⟩
  | 0x0C4 => some ⟨.i, .v, true⟩
  | 0x0C5 => some ⟨.i, .v, true⟩
  | 0x0C6 => some ⟨.i, .v, true⟩
  | 0x0C8 => some ⟨.i, .v, true⟩
  | 0x100 => some ⟨.v, .c, true⟩
  | 0x101 => some ⟨.v, .c, true⟩
  | 0x102 => some ⟨.v, .c, true⟩
  | 0x103 => some ⟨.v, .c, true⟩
  | 0x104 => some ⟨.v, .c, true⟩
  | 0x105 => some ⟨.v, .c, true⟩
  | 0x106 => some ⟨.v, .c, true⟩
  | 0x108 => some ⟨.b, .c, true⟩
  | 0x109 => some ⟨.b, .c, true⟩
  | 0x10A => some ⟨.b, .c, true⟩
  | 0x10B => some ⟨.v, .c, true⟩
  | 0x10C => some ⟨.b, .c, true⟩
  | 0x10D => some ⟨.i, .c, true⟩
  | 0x10E => some ⟨.v, .c, true⟩
  | 0x10F => some ⟨.v, .c, true⟩
  | 0x110 => some ⟨.v, .c, true⟩
  | 0x111 => some ⟨.v, .c, true⟩
  | 0x112 => some ⟨.v, .c, true⟩
  | 0x113 => some ⟨.i, .c, true⟩
  | 0x114 => some ⟨.v, .c, true⟩
  | 0x115 => some ⟨.v, .c, true⟩
  | 0x150 => some ⟨.i, .c, true⟩
  | 0x180 => some ⟨.m, .m, true⟩
  | 0x181 => some ⟨.m, .m, true⟩
  | 0x182 => some ⟨.m, .m, false⟩
  | 0x183 => some ⟨.m, .m, false⟩
  | 0x184 => some ⟨.m, .m, true⟩
  | 0x185 => some ⟨.m, .m, true⟩
  | 0x186 => some ⟨.m, .m, true⟩
  | 0x187 => some ⟨.m, .m, false⟩
  | 0x188 => some ⟨.m, .m, false⟩
  | 0x189 => some ⟨.m, .m, false⟩
  | 0x18A => some ⟨.m, .m, false⟩
  | 0x18B => some ⟨.m, .m, true⟩
  | 0x18C => some ⟨.m, .m, false⟩
  | 0x18D => some ⟨.v, .m, true⟩
  | 0x18E => some ⟨.m, .m, false⟩
  | 0x1B0 => some ⟨.v, .m, false⟩
  | 0x1B1 => some ⟨.v, .m, false⟩
  | 0x1B2 => some ⟨.v, .m, false⟩
  | 0x1B3 => some ⟨.v, .m, false⟩
  | 0x1B4 => some ⟨.v, .m, false⟩
  | 0x1B5 => some ⟨.v, .m, false⟩
  | 0x200 => some ⟨.a, .a, false⟩
  | 0x201 => some ⟨.a, .a, false⟩
  | 0x202 => some ⟨.a, .a, false⟩
  | 0x203 => some ⟨.a, .a, false⟩
  | 0x204 => some ⟨.a, .a, false⟩
  | 0x205 => some ⟨.a, .a, false⟩
  | 0x206 => some ⟨.a, .a, false⟩
  | 0x207 => some ⟨.a, .a, false⟩
  | 0x208 => some ⟨.a, .a, false⟩
  | 0x209 => some ⟨.a, .a, false⟩
  | 0x20A => some ⟨.a, .a, false⟩
  | 0x20B => some ⟨.a, .a, false⟩
  | 0x242 => some ⟨.a, .a, false⟩
  | 0x243 => some ⟨.a, .a, false⟩
  | 0x244 => some ⟨.a, .a, false⟩
  | 0x245 => some ⟨.a, .a, false⟩
  | 0x280 => some ⟨.a, .a, false⟩
  | 0x281 => some ⟨.a, .a, false⟩
  | 0x282 => some ⟨.a, .a, false⟩
  | 0x283 => some ⟨.a, .a, false⟩
  | 0x284 => some ⟨.a, .a, false⟩
  | 0x285 => some ⟨.a, .a, false⟩
  | 0x286 => some ⟨.a, .a, false⟩
  | 0x287 => some ⟨.a, .a, false⟩
  | 0x288 => some ⟨.a, .a, false⟩
  | 0x289 => some ⟨.a, .a, false⟩
  | 0x2C3 => some ⟨.a, .a, false⟩
  | 0x2C6 => some ⟨.a, .a, false⟩
  | 0x300 => some ⟨.i, .c, false⟩
  | 0x301 => some ⟨.i, .c, true⟩
  | 0x302 => some ⟨.v, .c, true⟩
  | 0x303 => some ⟨.i, .c, true⟩
  | 0x304 => some ⟨.i, .c, false⟩
  | 0x305 => some ⟨.v, .c, true⟩
  | 0x306 => some ⟨.i, .c, true⟩
  | 0x307 => some ⟨.v, .c, false⟩
  | 0x308 => some ⟨.v, .c, false⟩
  | 0x345 => some ⟨.i, .c, true⟩
  | _ => none

/-- The instruction of an opcode and its fields (R337). -/
def mkInstr (opc : Nat) (pl : Payload) : Option Instr :=
  match pl with
  | .v f =>
    match opc with
    | 0x001 => some (.nop f)
    | 0x002 => some (.iadd f)
    | 0x003 => some (.isub f)
    | 0x004 => some (.imul f)
    | 0x005 => some (.imulh f)
    | 0x006 => some (.imad f)
    | 0x007 => some (.iaddc f)
    | 0x008 => some (.imin f)
    | 0x009 => some (.imax f)
    | 0x00A => some (.iabs f)
    | 0x00B => some (.ineg f)
    | 0x00C => some (.icmp f)
    | 0x00D => some (.andB f)
    | 0x00E => some (.orB f)
    | 0x00F => some (.xorB f)
    | 0x010 => some (.andnB f)
    | 0x011 => some (.notB f)
    | 0x012 => some (.shl f)
    | 0x013 => some (.shr f)
    | 0x014 => some (.sar f)
    | 0x015 => some (.rol f)
    | 0x016 => some (.clz f)
    | 0x017 => some (.popc f)
    | 0x018 => some (.brev f)
    | 0x019 => some (.bfe f)
    | 0x01A => some (.bfi f)
    | 0x01B => some (.sel f)
    | 0x01D => some (.iaddw f)
    | 0x01E => some (.sext f)
    | 0x01F => some (.zext f)
    | 0x020 => some (.mov f)
    | 0x080 => some (.fadd f)
    | 0x081 => some (.fsub f)
    | 0x082 => some (.fmul f)
    | 0x083 => some (.ffma f)
    | 0x084 => some (.fmin f)
    | 0x085 => some (.fmax f)
    | 0x086 => some (.fcmp f)
    | 0x087 => some (.fclass f)
    | 0x088 => some (.fscale f)
    | 0x089 => some (.frnd f)
    | 0x08A => some (.frcp f)
    | 0x08B => some (.frsq f)
    | 0x08C => some (.fsqrt f)
    | 0x08D => some (.fdiv f)
    | 0x08E => some (.fexp2 f)
    | 0x08F => some (.flog2 f)
    | 0x090 => some (.fsin f)
    | 0x091 => some (.fcos f)
    | 0x092 => some (.ftanh f)
    | 0x093 => some (.hadd2 f)
    | 0x094 => some (.hmul2 f)
    | 0x095 => some (.hfma2 f)
    | 0x096 => some (.hmax2 f)
    | 0x097 => some (.cvt f)
    | 0x098 => some (.packb f)
    | 0x099 => some (.unpackb f)
    | 0x100 => some (.pand f)
    | 0x101 => some (.por f)
    | 0x102 => some (.pxor f)
    | 0x103 => some (.pnot f)
    | 0x104 => some (.pmov f)
    | 0x105 => some (.pany f)
    | 0x106 => some (.pall f)
    | 0x10B => some (.exitT f)
    | 0x10E => some (.elect f)
    | 0x10F => some (.vote f)
    | 0x110 => some (.shfl f)
    | 0x111 => some (.greduce f)
    | 0x112 => some (.yield f)
    | 0x114 => some (.nopre f)
    | 0x115 => some (.preok f)
    | 0x18D => some (.drainst f)
    | 0x1B0 => some (.pin f)
    | 0x1B1 => some (.unpin f)
    | 0x1B2 => some (.reclaim f)
    | 0x1B3 => some (.reclwait f)
    | 0x1B4 => some (.snap f)
    | 0x1B5 => some (.snapq f)
    | 0x302 => some (.rte f)
    | 0x305 => some (.cntrd f)
    | 0x307 => some (.sigrd f)
    | 0x308 => some (.haltW f)
    | _ => none
  | .i f =>
    match opc with
    | 0x042 => some (.iaddI f)
    | 0x043 => some (.isubI f)
    | 0x044 => some (.imulI f)
    | 0x045 => some (.imulhI f)
    | 0x048 => some (.iminI f)
    | 0x049 => some (.imaxI f)
    | 0x04C => some (.icmpI f)
    | 0x04D => some (.andBI f)
    | 0x04E => some (.orBI f)
    | 0x04F => some (.xorBI f)
    | 0x050 => some (.andnBI f)
    | 0x052 => some (.shlI f)
    | 0x053 => some (.shrI f)
    | 0x054 => some (.sarI f)
    | 0x055 => some (.rolI f)
    | 0x060 => some (.movi f)
    | 0x061 => some (.movu f)
    | 0x0C0 => some (.faddI f)
    | 0x0C1 => some (.fsubI f)
    | 0x0C2 => some (.fmulI f)
    | 0x0C4 => some (.fminI f)
    | 0x0C5 => some (.fmaxI f)
    | 0x0C6 => some (.fcmpI f)
    | 0x0C8 => some (.fscaleI f)
    | 0x10D => some (.bar f)
    | 0x113 => some (.sleep f)
    | 0x150 => some (.shflI f)
    | 0x300 => some (.scall f)
    | 0x301 => some (.trapI f)
    | 0x303 => some (.getsr f)
    | 0x304 => some (.setsr f)
    | 0x306 => some (.bkpt f)
    | 0x345 => some (.cntrdI f)
    | _ => none
  | .m f =>
    match opc with
    | 0x01C => some (.lea f)
    | 0x180 => some (.ld f)
    | 0x181 => some (.st f)
    | 0x182 => some (.ldn f)
    | 0x183 => some (.stn f)
    | 0x184 => some (.ldu f)
    | 0x185 => some (.stu f)
    | 0x186 => some (.ldparam f)
    | 0x187 => some (.pagereq f)
    | 0x188 => some (.atom f)
    | 0x189 => some (.atomf f)
    | 0x18A => some (.red f)
    | 0x18B => some (.fence f)
    | 0x18C => some (.acqr f)
    | 0x18E => some (.qctl f)
    | _ => none
  | .b f =>
    match opc with
    | 0x108 => some (.bra f)
    | 0x109 => some (.brx f)
    | 0x10A => some (.call f)
    | 0x10C => some (.ret f)
    | _ => none
  | .a f =>
    match opc with
    | 0x200 => some (.copy f)
    | 0x201 => some (.gcopy f)
    | 0x202 => some (.binit f)
    | 0x203 => some (.arrive f)
    | 0x204 => some (.waitphase f)
    | 0x205 => some (.testphase f)
    | 0x206 => some (.tokwait f)
    | 0x207 => some (.tfill f)
    | 0x208 => some (.tempty f)
    | 0x209 => some (.twait f)
    | 0x20A => some (.cretry f)
    | 0x20B => some (.cskip f)
    | 0x242 => some (.binitI f)
    | 0x243 => some (.arriveI f)
    | 0x244 => some (.waitphaseI f)
    | 0x245 => some (.testphaseI f)
    | 0x280 => some (.tres f)
    | 0x281 => some (.trel f)
    | 0x282 => some (.tload f)
    | 0x283 => some (.mloadw f)
    | 0x284 => some (.mswap f)
    | 0x285 => some (.mma f)
    | 0x286 => some (.mhad f)
    | 0x287 => some (.mzero f)
    | 0x288 => some (.mdrain f)
    | 0x289 => some (.mread f)
    | 0x2C3 => some (.mloadwI f)
    | 0x2C6 => some (.mhadI f)
    | _ => none

/-- A 10-bit operand field (R18); a nonzero bit that the table fixes at zero is refused. -/
def decOperand (x : Nat) : Option Operand :=
  if x / 256 % 4 = 0 then some (.v (BitVec.ofNat 8 x))
  else if x / 256 % 4 = 1 then (if x / 64 % 4 = 0 then some (.g (BitVec.ofNat 6 x)) else none)
  else if x / 256 % 4 = 2 then
    if x / 64 % 4 = 0 then (if x / 16 % 4 = 0 then some (.p (BitVec.ofNat 4 x)) else none)
    else if x / 64 % 4 = 1 then (if x / 16 % 4 = 0 then some (.t (BitVec.ofNat 4 x)) else none)
    else if x / 64 % 4 = 2 then (if x / 8 % 8 = 0 then some (.a (BitVec.ofNat 3 x)) else none)
    else (if x / 8 % 8 = 0 then some (.pin (BitVec.ofNat 3 x)) else none)
  else some (.w (BitVec.ofNat 3 (x / 32)) (BitVec.ofNat 5 x))

/-- The header (R324); bits [31:30] are checked by `decPayload`. -/
def decHeader (w : Nat) : Header :=
  { eb := BitVec.ofNat 3 (fld w 27 3), arm := fld w 26 1 == 1, atok := BitVec.ofNat 3 (fld w 23 3),
    wait := BitVec.ofNat 8 (fld w 15 8), ginv := fld w 14 1 == 1, guard := BitVec.ofNat 4 (fld w 10 4) }

/-- The fields of a word in a given format, `none` where a reserved bit or a fixed operand bit is not zero (R324, R325). -/
def decPayload (fmt : Fmt) (w : Nat) : Option Payload :=
  if fld w 30 2 ≠ 0 then none
  else match fmt with
  | .v =>
    if fld w 88 8 ≠ 0 then none
    else match decOperand (fld w 32 10), decOperand (fld w 42 10), decOperand (fld w 52 10), decOperand (fld w 62 10) with
    | some d, some a, some b, some c =>
      some (.v { h := decHeader w, d := d, a := a, b := b, c := c, sel := BitVec.ofNat 4 (fld w 72 4),
                 rnd := BitVec.ofNat 3 (fld w 76 3), sat := fld w 79 1 == 1, dfmt := BitVec.ofNat 4 (fld w 80 4),
                 sfmt := BitVec.ofNat 4 (fld w 84 4) })
    | _, _, _, _ => none
  | .i =>
    match decOperand (fld w 32 10), decOperand (fld w 42 10) with
    | some d, some a =>
      some (.i { h := decHeader w, d := d, a := a, sel := BitVec.ofNat 4 (fld w 52 4), rnd := BitVec.ofNat 3 (fld w 56 3),
                 sat := fld w 59 1 == 1, dfmt := BitVec.ofNat 4 (fld w 60 4), imm := BitVec.ofNat 32 (fld w 64 32) })
    | _, _ => none
  | .m =>
    match decOperand (fld w 32 10), decOperand (fld w 42 10), decOperand (fld w 52 10) with
    | some d, some b, some x =>
      some (.m { h := decHeader w, data := d, base := b, idx := x, scope := BitVec.ofNat 3 (fld w 62 3),
                 ord := BitVec.ofNat 2 (fld w 65 2), size := BitVec.ofNat 3 (fld w 67 3), scl := BitVec.ofNat 2 (fld w 70 2),
                 subop := BitVec.ofNat 4 (fld w 72 4), ofs := BitVec.ofNat 20 (fld w 76 20) })
    | _, _, _ => none
  | .b =>
    if fld w 83 13 ≠ 0 then none
    else match decOperand (fld w 32 10) with
    | some o =>
      some (.b { h := decHeader w, opnd := o, mod := BitVec.ofNat 6 (fld w 42 6), lofs := BitVec.ofNat 32 (fld w 48 32),
                 tslot := BitVec.ofNat 3 (fld w 80 3) })
    | none => none
  | .a =>
    match decOperand (fld w 32 10), decOperand (fld w 42 10), decOperand (fld w 52 10), decOperand (fld w 62 10) with
    | some r, some a, some b, some c =>
      some (.a { h := decHeader w, res := r, a := a, b := b, c := c, imm16 := BitVec.ofNat 16 (fld w 72 16),
                 lo := BitVec.ofNat 4 (fld w 88 4), sat := fld w 92 1 == 1, pw := BitVec.ofNat 2 (fld w 93 2),
                 poll := fld w 95 1 == 1 })
    | _, _, _, _ => none

/-- The decoder (R335 steps 3 to 5): opcode first, then the fields, then the checks of `Instr.wf`. Opcode 0x000 is INVALID
whatever its other bits (R338). -/
def decode (w : Nat) : Except Reject Instr :=
  let opc := fld w 0 10
  if opc = 0 then .ok (.invalid default)
  else match opRow opc with
  | none => .error .illegalOp
  | some row =>
    match decPayload row.fmt w with
    | none => .error .illegalField
    | some pl =>
      match mkInstr opc pl with
      | none => .error .illegalField
      | some i => if i.wf then .ok i else .error .illegalField

/-- Whether the opcode of a word may be issued in an auditor kernel (R339); an unallocated opcode is not asked. -/
def auditorMay (w : Nat) : Bool :=
  match opRow (fld w 0 10) with
  | some row => row.auditor
  | none => true

/-- The pipe class of a word (R320), C for INVALID and for what decodes to nothing. -/
def pipeOf (w : Nat) : Pipe :=
  match opRow (fld w 0 10) with
  | some row => row.pipe
  | none => .c

/-- The opcode and the fields of an instruction, `none` for an operation of the device, which has no encoding. -/
def Instr.parts : Instr → Option (Nat × Payload)
  | .invalid f => some (0x000, .v f)
  | .nop f => some (0x001, .v f)
  | .iadd f => some (0x002, .v f)
  | .isub f => some (0x003, .v f)
  | .imul f => some (0x004, .v f)
  | .imulh f => some (0x005, .v f)
  | .imad f => some (0x006, .v f)
  | .iaddc f => some (0x007, .v f)
  | .imin f => some (0x008, .v f)
  | .imax f => some (0x009, .v f)
  | .iabs f => some (0x00A, .v f)
  | .ineg f => some (0x00B, .v f)
  | .icmp f => some (0x00C, .v f)
  | .andB f => some (0x00D, .v f)
  | .orB f => some (0x00E, .v f)
  | .xorB f => some (0x00F, .v f)
  | .andnB f => some (0x010, .v f)
  | .notB f => some (0x011, .v f)
  | .shl f => some (0x012, .v f)
  | .shr f => some (0x013, .v f)
  | .sar f => some (0x014, .v f)
  | .rol f => some (0x015, .v f)
  | .clz f => some (0x016, .v f)
  | .popc f => some (0x017, .v f)
  | .brev f => some (0x018, .v f)
  | .bfe f => some (0x019, .v f)
  | .bfi f => some (0x01A, .v f)
  | .sel f => some (0x01B, .v f)
  | .lea f => some (0x01C, .m f)
  | .iaddw f => some (0x01D, .v f)
  | .sext f => some (0x01E, .v f)
  | .zext f => some (0x01F, .v f)
  | .mov f => some (0x020, .v f)
  | .iaddI f => some (0x042, .i f)
  | .isubI f => some (0x043, .i f)
  | .imulI f => some (0x044, .i f)
  | .imulhI f => some (0x045, .i f)
  | .iminI f => some (0x048, .i f)
  | .imaxI f => some (0x049, .i f)
  | .icmpI f => some (0x04C, .i f)
  | .andBI f => some (0x04D, .i f)
  | .orBI f => some (0x04E, .i f)
  | .xorBI f => some (0x04F, .i f)
  | .andnBI f => some (0x050, .i f)
  | .shlI f => some (0x052, .i f)
  | .shrI f => some (0x053, .i f)
  | .sarI f => some (0x054, .i f)
  | .rolI f => some (0x055, .i f)
  | .movi f => some (0x060, .i f)
  | .movu f => some (0x061, .i f)
  | .fadd f => some (0x080, .v f)
  | .fsub f => some (0x081, .v f)
  | .fmul f => some (0x082, .v f)
  | .ffma f => some (0x083, .v f)
  | .fmin f => some (0x084, .v f)
  | .fmax f => some (0x085, .v f)
  | .fcmp f => some (0x086, .v f)
  | .fclass f => some (0x087, .v f)
  | .fscale f => some (0x088, .v f)
  | .frnd f => some (0x089, .v f)
  | .frcp f => some (0x08A, .v f)
  | .frsq f => some (0x08B, .v f)
  | .fsqrt f => some (0x08C, .v f)
  | .fdiv f => some (0x08D, .v f)
  | .fexp2 f => some (0x08E, .v f)
  | .flog2 f => some (0x08F, .v f)
  | .fsin f => some (0x090, .v f)
  | .fcos f => some (0x091, .v f)
  | .ftanh f => some (0x092, .v f)
  | .hadd2 f => some (0x093, .v f)
  | .hmul2 f => some (0x094, .v f)
  | .hfma2 f => some (0x095, .v f)
  | .hmax2 f => some (0x096, .v f)
  | .cvt f => some (0x097, .v f)
  | .packb f => some (0x098, .v f)
  | .unpackb f => some (0x099, .v f)
  | .faddI f => some (0x0C0, .i f)
  | .fsubI f => some (0x0C1, .i f)
  | .fmulI f => some (0x0C2, .i f)
  | .fminI f => some (0x0C4, .i f)
  | .fmaxI f => some (0x0C5, .i f)
  | .fcmpI f => some (0x0C6, .i f)
  | .fscaleI f => some (0x0C8, .i f)
  | .pand f => some (0x100, .v f)
  | .por f => some (0x101, .v f)
  | .pxor f => some (0x102, .v f)
  | .pnot f => some (0x103, .v f)
  | .pmov f => some (0x104, .v f)
  | .pany f => some (0x105, .v f)
  | .pall f => some (0x106, .v f)
  | .bra f => some (0x108, .b f)
  | .brx f => some (0x109, .b f)
  | .call f => some (0x10A, .b f)
  | .exitT f => some (0x10B, .v f)
  | .ret f => some (0x10C, .b f)
  | .bar f => some (0x10D, .i f)
  | .elect f => some (0x10E, .v f)
  | .vote f => some (0x10F, .v f)
  | .shfl f => some (0x110, .v f)
  | .greduce f => some (0x111, .v f)
  | .yield f => some (0x112, .v f)
  | .sleep f => some (0x113, .i f)
  | .nopre f => some (0x114, .v f)
  | .preok f => some (0x115, .v f)
  | .shflI f => some (0x150, .i f)
  | .ld f => some (0x180, .m f)
  | .st f => some (0x181, .m f)
  | .ldn f => some (0x182, .m f)
  | .stn f => some (0x183, .m f)
  | .ldu f => some (0x184, .m f)
  | .stu f => some (0x185, .m f)
  | .ldparam f => some (0x186, .m f)
  | .pagereq f => some (0x187, .m f)
  | .atom f => some (0x188, .m f)
  | .atomf f => some (0x189, .m f)
  | .red f => some (0x18A, .m f)
  | .fence f => some (0x18B, .m f)
  | .acqr f => some (0x18C, .m f)
  | .drainst f => some (0x18D, .v f)
  | .qctl f => some (0x18E, .m f)
  | .pin f => some (0x1B0, .v f)
  | .unpin f => some (0x1B1, .v f)
  | .reclaim f => some (0x1B2, .v f)
  | .reclwait f => some (0x1B3, .v f)
  | .snap f => some (0x1B4, .v f)
  | .snapq f => some (0x1B5, .v f)
  | .copy f => some (0x200, .a f)
  | .gcopy f => some (0x201, .a f)
  | .binit f => some (0x202, .a f)
  | .arrive f => some (0x203, .a f)
  | .waitphase f => some (0x204, .a f)
  | .testphase f => some (0x205, .a f)
  | .tokwait f => some (0x206, .a f)
  | .tfill f => some (0x207, .a f)
  | .tempty f => some (0x208, .a f)
  | .twait f => some (0x209, .a f)
  | .cretry f => some (0x20A, .a f)
  | .cskip f => some (0x20B, .a f)
  | .binitI f => some (0x242, .a f)
  | .arriveI f => some (0x243, .a f)
  | .waitphaseI f => some (0x244, .a f)
  | .testphaseI f => some (0x245, .a f)
  | .tres f => some (0x280, .a f)
  | .trel f => some (0x281, .a f)
  | .tload f => some (0x282, .a f)
  | .mloadw f => some (0x283, .a f)
  | .mswap f => some (0x284, .a f)
  | .mma f => some (0x285, .a f)
  | .mhad f => some (0x286, .a f)
  | .mzero f => some (0x287, .a f)
  | .mdrain f => some (0x288, .a f)
  | .mread f => some (0x289, .a f)
  | .mloadwI f => some (0x2C3, .a f)
  | .mhadI f => some (0x2C6, .a f)
  | .scall f => some (0x300, .i f)
  | .trapI f => some (0x301, .i f)
  | .rte f => some (0x302, .v f)
  | .getsr f => some (0x303, .i f)
  | .setsr f => some (0x304, .i f)
  | .cntrd f => some (0x305, .v f)
  | .bkpt f => some (0x306, .i f)
  | .sigrd f => some (0x307, .v f)
  | .haltW f => some (0x308, .v f)
  | .cntrdI f => some (0x345, .i f)
  | .powerOn .. | .deviceReset .. | .stageHostAttach | .stageEmber | .stackTrainingFail .. | .stageFullCompute
  | .stageFullService .. | .thermalRise .. | .thermalFall .. | .clockRelockDone .. | .islopWrite .. | .linkFlitRetry ..
  | .linkRateDrop .. | .linkUpreq .. | .linkDown .. | .rinnorRequestSend .. | .rinnorResponse .. | .rinnorTimeout ..
  | .hostRequest .. | .storageInboundRequest .. | .sessionOpen .. | .sessionMessage .. | .attestationRequest ..
  | .notices .. | .resetPart .. | .migrate .. | .migrationFreeze .. | .migrationArrival .. | .postCopyPull ..
  | .postCopyPullFail .. | .preempt .. | .kindlingRebind .. | .ownershipQuery .. | .regrd .. | .regwr .. | .stopWg ..
  | .resumeWg .. | .sootrd .. | .eread .. | .pframesWrite .. | .trctlWrite .. | .registerWrite .. | .alloc ..
  | .freeCall .. | .mapCall .. | .unmap .. | .protect .. | .lazy .. | .query .. | .qbind .. | .restore .. | .qopen ..
  | .qclose .. | .nvbind .. | .nvfree .. | .nvfreeAbort .. | .salloc .. | .sfree .. | .gfree .. | .gmap ..
  | .callServe .. | .callReply .. | .callRecordPost .. | .pageResolve .. | .victimEvict .. | .epochScrub ..
  | .sectorScrub .. | .copyAside .. | .drainStart .. | .drainDone .. | .drainFail .. | .drainRetry ..
  | .launchAccept .. | .dispatch .. | .launchBlocking .. | .launchEnd .. | .signatureCheck .. | .sliceEnd ..
  | .partitionHalt .. | .groupResume .. | .nopreExpiry .. | .infieldTest .. | .infieldTestDone ..
  | .uncorrectableError .. | .reportDelivery .. | .loadFill .. | .storeResolve .. | .packetAppend .. | .networkSend ..
  | .networkReceive .. | .collectiveStart .. | .elementLanding .. | .copyFaultReport .. | .matrixOpExecute ..
  | .pinSearchDone .. | .reclaimResearch .. | .reclaimCompletionPost .. | .sleepWake .. | .yieldReady ..
  | .sigrdReportDone .. | .energyInterval .. | .sootUpdate | .traceLoss .. | .linkRetrainDone .. | .powerLoss
  | .partitionCreate .. | .migrationFailureReport .. => none

/-- A 10-bit operand field (R18). -/
def encOperand : Operand → Nat
  | .v n => n.toNat
  | .g n => 256 + n.toNat
  | .p n => 512 + n.toNat
  | .t n => 576 + n.toNat
  | .a n => 640 + n.toNat
  | .pin n => 704 + n.toNat
  | .w k n => 768 + 32 * k.toNat + n.toNat

def bit (b : Bool) : Nat := if b then 1 else 0

/-- The header with its opcode (R324). -/
def encHeader (opc : Nat) (h : Header) : Nat :=
  opc + h.guard.toNat * 2 ^ 10 + bit h.ginv * 2 ^ 14 + h.wait.toNat * 2 ^ 15 + h.atok.toNat * 2 ^ 23 + bit h.arm * 2 ^ 26 +
    h.eb.toNat * 2 ^ 27

/-- The 96 bits of an opcode and its fields (R324, R325, R328). -/
def encWord (opc : Nat) : Payload → Nat
  | .v f =>
    encHeader opc f.h + encOperand f.d * 2 ^ 32 + encOperand f.a * 2 ^ 42 + encOperand f.b * 2 ^ 52 + encOperand f.c * 2 ^ 62 +
      f.sel.toNat * 2 ^ 72 + f.rnd.toNat * 2 ^ 76 + bit f.sat * 2 ^ 79 + f.dfmt.toNat * 2 ^ 80 + f.sfmt.toNat * 2 ^ 84
  | .i f =>
    encHeader opc f.h + encOperand f.d * 2 ^ 32 + encOperand f.a * 2 ^ 42 + f.sel.toNat * 2 ^ 52 + f.rnd.toNat * 2 ^ 56 +
      bit f.sat * 2 ^ 59 + f.dfmt.toNat * 2 ^ 60 + f.imm.toNat * 2 ^ 64
  | .m f =>
    encHeader opc f.h + encOperand f.data * 2 ^ 32 + encOperand f.base * 2 ^ 42 + encOperand f.idx * 2 ^ 52 +
      f.scope.toNat * 2 ^ 62 + f.ord.toNat * 2 ^ 65 + f.size.toNat * 2 ^ 67 + f.scl.toNat * 2 ^ 70 +
      f.subop.toNat * 2 ^ 72 + f.ofs.toNat * 2 ^ 76
  | .b f =>
    encHeader opc f.h + encOperand f.opnd * 2 ^ 32 + f.mod.toNat * 2 ^ 42 + f.lofs.toNat * 2 ^ 48 + f.tslot.toNat * 2 ^ 80
  | .a f =>
    encHeader opc f.h + encOperand f.res * 2 ^ 32 + encOperand f.a * 2 ^ 42 + encOperand f.b * 2 ^ 52 + encOperand f.c * 2 ^ 62 +
      f.imm16.toNat * 2 ^ 72 + f.lo.toNat * 2 ^ 88 + bit f.sat * 2 ^ 92 + f.pw.toNat * 2 ^ 93 + bit f.poll * 2 ^ 95

/-- The encoder: the word of an instruction, `none` for an operation of the device. -/
def encode (i : Instr) : Option (BitVec 96) :=
  match i.parts with
  | some (opc, pl) => some (BitVec.ofNat 96 (encWord opc pl))
  | none => none

/-- What the decoder reads from an instruction whose bits, numbered as spec/opcode_table.json numbers them, are `w`; the
bits above `nbits` are 0. Every instruction has 96 bits (R324). -/
def decodeTableWord (nbits w : Nat) : Option Instr :=
  match decode (w % 2 ^ nbits % 2 ^ 96) with
  | .ok i => some i
  | .error _ => none

end Sys2Proof
end

