-- ==== Sys2Proof/Machine/State.lean ====
section
/-! DEFINITION. The state of the machine as plain data (spec/95_what_each_step_holds.md and the section files), the reasons
a step may stop, and the machine right after reset.

Keys of the sparse tables. A core is die * 64 + c; a group (its gid) is core * 512 + slot; a thread (its tid) is
gid * 64 + LEVEL0. A vector register has key tid * 256 + n, a predicate register tid * 16 + n, a uniform register
gid * 64 + n, a tile register gid * 16 + n, a pin register gid * 8 + n, an accumulator gid * 8 + n. A unit of 256 bytes of
scratchpad is named by its physical address / 256, a sector by its physical address / 32. -/
namespace Sys2Proof.Machine

/-- A register that carries a full/empty bit (R155, R162), named by its holder and number. -/
inductive RegName where
  | v (tid n : Nat)
  | u (gid n : Nat)
  | p (tid n : Nat)
  deriving DecidableEq, Repr

/-- The causes of R281 that are delivered or kill, by name; `code` in Machine/Ops.lean gives the numbers. -/
inductive Cause where
  | illegalOp | illegalField | badTarget | emptyRead | align | permLoad | storeFault | copyFault | paramUnbound
  | atomicUnreachable | rights | tileReserve | bkpt | soft | pageLost | doubleFault | nopreExpired
  deriving DecidableEq, Repr

/-- A cause with its trap information (R283). -/
structure TrapInfo where
  cause : Cause
  i0 : W64 := 0
  i1 : W64 := 0
  i2 : W64 := 0
  i3 : W64 := 0
  deriving DecidableEq, Repr

/-- What a thread that has not exited waits for (R137). -/
inductive Wait where
  /-- token-wait: the tokens of its wait mask. -/
  | tokens (mask : BitVec 8)
  /-- operand-wait: empty registers (R142). -/
  | regs (rs : List RegName)
  /-- converging at a group-collective instruction, until its group stands there and registers are full (R143, R164). -/
  | converge (rs : List RegName)
  /-- suspended at BAR.LEVEL k above level 1, until the phase count of its level-k part passes (R362). -/
  | bar (k : Nat)
  /-- at a SCALL that waits for its group's stores that are not held (R79). -/
  | unheld
  /-- suspended in SCALL whose record, by its TAG, is not written yet (R82). -/
  | callRing (tag : Nat)
  /-- suspended in SCALL until the reply of TAG (R79). -/
  | call (tag : Nat)
  /-- suspended by a residency fault on a page of its space (R87). -/
  | page (va : Nat)
  /-- suspended in SLEEP until its group's CYCLE reaches a count (R369). -/
  | sleep (till : Nat)
  /-- suspended in WAITPHASE on the object at a physical address, past a phase count (R416). -/
  | phase (pa want : Nat)
  /-- suspended in RECLWAIT (R222). -/
  | reclaim
  /-- at a load or atomic that waits for its thread's own store to the sector of a virtual address (R196). -/
  | sector (va : Nat)
  /-- at an instruction that waits for its thread's stores to resolve (R293). -/
  | stores
  /-- suspended in DRAINST: for its own stores, or for those of its group that had issued before a stamp (R398). -/
  | drain (before : Option Nat)
  /-- suspended in SNAP, for the earlier accesses of every thread that shares it (R400). -/
  | snap (ts : List Nat)
  /-- at the boundary before the 65th instruction after a store whose fault is not known yet (R293). -/
  | skid
  /-- at a release or fence that waits for its thread's loads too (R197). -/
  | accesses
  /-- after YIELD, until the cycle count of its core reaches a count (R368). -/
  | yield (till : Nat)
  /-- in TWAIT, for the unit at a physical address / 256 to be full (R419). -/
  | tile (unit : Nat) (full : Bool)
  /-- in QCTL .waitroom (`room`) or .waitne on a control word (R399). -/
  | room (cw : Nat) (room : Bool)
  /-- in SIGRD, for the report of the launch (R431). -/
  | report
  /-- suspended in TLOAD without a barrier, until its bytes have landed (R408). -/
  | tload
  /-- at an instruction its pipe refuses (R141): 0 record queue full, 1 window buffer full, 2 fault queue full (R95), 3 copy
  slots held, 4 no room in a matrix queue for its operations, 5 search limit, 6 behind a
  RECLAIM of its group at the search limit (R224). -/
  | pipe (why : Nat)
  /-- at a PIN or UNPIN, until the earlier accesses of every thread that acts in it have been performed (R217, R218). -/
  | released (ts : List Nat)
  /-- at a TRES or TREL of a tile register that a queued operation of its group names (R407). -/
  | tileReg (n : Nat)
  /-- at an ACQR whose value is still to come from host memory (R43, R397). -/
  | acqr
  /-- at an instruction whose line, or the line of whose target, is still to come from host memory, by its physical address (R43, R315,
  R317). -/
  | fetch (pa : Nat)
  deriving DecidableEq, Repr

/-- The states of R137; halting is held by the group. -/
inductive TState where
  | ready
  | waiting (w : Wait)
  /-- suspended, and what it waited for has come while its group was halted: marked done, ready when the group runs (R137). -/
  | replied
  | exited
  deriving DecidableEq, Repr

/-- An entry of a Grate (R138): the code address and space of its key, and its ready threads, at most one for a lane. -/
structure GrateEnt where
  addr : Addr
  space : Nat
  threads : List Nat
  deriving DecidableEq, Repr

/-- A window packet (R105): the flits stored so far, and the handle of its queue; once it is closed, the id of the store that closed
it. -/
structure Packet where
  handle : Nat
  flits : List (List Byte)
  closedBy : Nat := 0
  deriving DecidableEq, Repr

/-- A queue claim (R106): the queue and the index of the claimed entry. -/
structure Claim where
  handle : Nat
  entry : Nat
  deriving DecidableEq, Repr

/-- A thread (07, 08, 15). -/
structure Thread where
  pc : Addr
  st : TState := .ready
  /-- The target bit of its slot is still to be checked: a first entry at ENTRY, or an entry that met an absent page (R317). -/
  entry : Bool := false
  /-- It came to its address in sequence past a line of kind 01 (R316). -/
  pastEnd : Bool := false
  /-- Age stamp: when it last became ready (R138). -/
  since : Nat := 0
  paramBound : Bool := false
  ceiling : Bool := false
  inHandler : Bool := false
  trapPc : Addr := 0
  trapCause : BitVec 16 := 0
  info0 : W64 := 0
  info1 : W64 := 0
  info2 : W64 := 0
  info3 : W64 := 0
  /-- Imprecise and asynchronous reports that wait for delivery, oldest first (R288, R293). -/
  reports : List TrapInfo := []
  /-- Path signature T (R307). -/
  sig : W64 := 0
  /-- Instructions retired by the thread, for the skid bound (R293). -/
  retired : Nat := 0
  /-- It waits in the overflow chain of its Grate, and so has joined no entry (R138, R141). -/
  chained : Bool := false
  /-- The lines of host memory whose bytes have come last for its instruction and for its target (R43, R315, R317). -/
  lines : List Nat := []
  /-- The result of a wait that ended while its group was halted (R137, R402). -/
  result : Option W64 := none
  /-- Arrivals of the thread at BAR.LEVEL k (R362), by k. -/
  arrivals : Tab Nat := []
  /-- Addresses of the BAR.LEVEL instructions above level 1 at which it has arrived and not departed (R362, R363). -/
  arrived : List Addr := []
  packet : Option Packet := none
  claim : Option Claim := none
  deriving DecidableEq, Repr

/-- A token (R22): operations outstanding and the arming threads, bit i for LEVEL0 = i. Idle when no operation is left. -/
structure Token where
  ops : Nat := 0
  armers : W64 := 0
  deriving DecidableEq, Repr

/-- A group slot that holds a group (R153). -/
structure Group where
  space : Nat
  launch : Nat
  /-- Index of its co-resident instance in the launch. -/
  inst : Nat
  /-- LEVEL1 to LEVEL7 (R120). -/
  levels : List Nat
  /-- Group index in its workgroup (R117). -/
  gidx : Nat
  width : Nat
  laneBase : Nat
  halted : Bool := false
  /-- Age stamp of the halt (R147). -/
  haltAt : Nat := 0
  /-- Stopped by STOP (R308). -/
  stopped : Bool := false
  /-- A halt that waits for the hold of NOPRE to end (R150). -/
  haltDue : Bool := false
  spilt : BitVec 8 := 0
  /-- Which of its accumulators are spilt (R147). -/
  accSpilt : BitVec 8 := 0
  /-- First DRAM frame of its save area and its frame count (R147, R168). -/
  saveFrame : Nat := 0
  saveCount : Nat := 0
  /-- Digest kept for each sealed unit (R170): by SPILT bit, and by 8 + k for accumulator k. -/
  digests : Tab (List Byte) := []
  tokens : Tab Token := []
  budget : Nat := 65536
  hold : Option Addr := none
  cycle : W64 := 0
  gtime : W64 := 0
  stolen : W64 := 0
  /-- Flat address of the workgroup's allocation (R176). -/
  scrBase : Addr := 0
  /-- Start of the group's range in its core's operand buffer, in bytes. -/
  opBase : Nat := 0
  /-- Instructions retired by the group, and since its last SUMMARY; records since its last SYNC (R306). -/
  retired : W64 := 0
  sinceSummary : Nat := 0
  /-- Of those, the ones it retired while it was not selected (R306). -/
  unselected : Nat := 0
  records : Nat := 0
  deriving DecidableEq, Repr

/-- A launch record after its checks (R114). -/
structure LRec where
  entry : Addr
  handler : Addr
  nlev : Nat
  gwidth : Nat
  /-- Domain of levels 2 to NLEV - 1 (0 core to 3 device). -/
  domains : List Nat
  /-- Extents of levels 2 to NLEV - 1. -/
  exts : List Nat
  wlist : Addr
  wcount : Nat
  task : Addr
  tcount : Nat
  scratch : Nat
  opbuf : Nat
  compq : Nat
  vgran : Nat
  ggran : Nat
  tregs : Nat
  accs : Nat
  pclass : Bool
  pinclass : Bool
  replay : Bool
  prio : Nat
  auth : Nat
  authPart : Nat
  /-- WIN0 to WIN7: `none` unbound, else words and address (R121). -/
  wins : List (Option (Nat × Addr))
  deriving DecidableEq, Repr

/-- Where a launch stands. -/
inductive Phase where
  /-- accepted, a parameter window still to be read (R121). -/
  | reading
  /-- a child held until its parent ends (R123). -/
  | held (parent : Nat)
  | eligible
  | running
  /-- ended, its completion record waits for queue room (R122). -/
  | ended
  deriving DecidableEq, Repr

/-- A tile reference of a task (R128). -/
structure TileRef where
  /-- Physical address and size in bytes. -/
  pa : Nat
  size : Nat
  result : Bool
  deriving DecidableEq, Repr

/-- An accepted launch. -/
structure Launch where
  space : Nat
  seq : Nat
  handle : Nat
  die : Nat
  record : LRec
  /-- Parameter store: word n of window k at key 32 * k + n (R121). -/
  params : Tab W32 := []
  /-- Blocks of 256 bytes of host memory under its windows whose responses have arrived (R43, R121). -/
  got : List Nat := []
  phase : Phase
  /-- The launch of the thread that appended its record, while it is a child (R123). -/
  parent : Option Nat := none
  /-- Reference count of its die when it became eligible (R132). -/
  since : Nat := 0
  /-- Still replayable (R133). -/
  replayable : Bool := false
  attempts : Nat := 0
  consumptions : Nat := 0
  /-- Tile references of a task, and whether its result claims are held (R129). -/
  tiles : List TileRef := []
  claimed : Bool := false
  /-- Writable ranges: address and length (R134). -/
  ranges : List (Nat × Nat) := []
  /-- Serial of its launch generation (R187). -/
  gen : Option Nat := none
  firstKill : Option Nat := none
  retired : W64 := 0
  /-- Of those, the ones of the run under way (R307, R312). -/
  attempt : W64 := 0
  /-- Energy attributed to the work of the attempt under way, in millionths of a µJ (R311, R312). -/
  energy : Nat := 0
  /-- Next co-resident instance to place. -/
  next : Nat := 0
  /-- Reference count since which its next instance has not fitted, and whether it is blocking (R132). -/
  unfit : Option Nat := none
  blocking : Bool := false
  /-- Signature checking (R307): the run (0 for none), the signatures of this run and of the first by workgroup index, and
  the workgroups that disagreed. -/
  sigRun : Nat := 0
  sigs : Tab W64 := []
  sigsFirst : Tab W64 := []
  sigDiff : List Nat := []
  /-- Completion record kept for a full queue (R122). -/
  done : List Byte := []
  deriving DecidableEq, Repr

/-- What a pending fill reads (R162). -/
inductive FillWhat where
  /-- Elements of `size` bytes: `none` an absent one, which reads zero. -/
  | load (size : Nat) (els : List (Option Nat))
  /-- An atomic at a physical address: SUBOP, float, size in bytes, operand, compare value (R394). -/
  | atom (pa op : Nat) (flt : Bool) (size : Nat) (x c : Nat)
  /-- A line of code in host memory, by its physical address (R43, R315). -/
  | line (pa : Nat)
  /-- A value known at issue. -/
  | value (x : Nat)
  /-- A dequeue load: queue handle, flit, release (R106). -/
  | dequeue (handle flit : Nat) (rel : Bool)
  /-- GETSR of GTIME or STOLEN (R425): field 0 or 1. -/
  | time (field : Nat)
  /-- A counter of CNTRD (R427): its number and the launch that reads it. -/
  | ctr (n launch : Nat)
  /-- A RECLAIM search (R219), by name. -/
  | reclaim (name : Nat)
  /-- An accumulator read, filled by its matrix operation (R413). -/
  | mread
  /-- A result that the queued matrix operation or the search has given. -/
  | ready (x : Nat)
  deriving DecidableEq, Repr

/-- A pending fill: destination registers with their width in bits, low register first, and the flag predicate. -/
structure Fill where
  tid : Nat
  dst : List RegName
  flag : Option Nat
  flagVal : Byte
  what : FillWhat
  /-- Other threads whose flag predicate of that number takes the same value: the lanes of an LDU (R390). -/
  also : List Nat := []
  /-- A load or atomic with acquire order: later accesses of the thread wait for it (R197). -/
  acq : Bool := false
  /-- Blocks of 256 bytes of host memory whose responses have arrived (R43). -/
  got : List Nat := []
  /-- The issue that made it (`Ctx.serial`): lanes of one instruction keep their order (R195). -/
  inst : Nat := 0
  /-- The read of an ACQR: it marks nothing empty, and its thread goes on when it is done (R397). -/
  acqr : Bool := false
  /-- Its thread has exited: it completes, and what it delivers is discarded (R165). -/
  gone : Bool := false
  deriving DecidableEq, Repr

/-- A store, or an atomic without a returned value, that has retired and is not resolved (R291): one sector part of one
lane's access. -/
structure PStore where
  tid : Nat
  space : Nat
  va : Nat
  data : List Byte
  order : Nat
  scope : Nat
  /-- For an atomic: SUBOP, float, size in bytes, operand. -/
  atom : Option (Nat × Bool × Nat × Nat) := none
  code : Addr
  /-- Retired count of the thread at the store (R293). -/
  atRet : Nat
  /-- Held in the store-fault record queue (R292), and the age stamp of the hold (R96). -/
  held : Bool := false
  heldAt : Nat := 0
  /-- The issue that made it (`Ctx.serial`): lanes of one instruction keep their order (R105, R195). -/
  inst : Nat := 0
  deriving DecidableEq, Repr

/-- A bound queue (R100, R101, R110). HEAD, TAIL and the flags are the device's own copies, written to the control word. -/
structure Queue where
  space : Nat
  cw : Nat
  kind : Nat
  base : Nat
  window : Nat
  logDepth : Nat
  esize : Nat
  scratch : Bool
  netrx : Bool
  head : Nat := 0
  tail : Nat := 0
  ovf : Bool := false
  drop : Bool := false
  /-- Next entry to claim, and claimed entries that are released but not yet passed by HEAD (R106). -/
  nextClaim : Nat := 0
  released : List Nat := []
  srcDev : Nat := 0
  srcPart : Nat := 0
  /-- NVMe function, queue number, doorbell page and completion queue (R112). -/
  fn : BitVec 16 := 0
  nvq : Nat := 0
  bell : Nat := 0
  cq : Nat := 0
  cqLog : Nat := 0
  /-- The launch whose thread appended an entry, by the entry's number (R123). -/
  parents : Tab Nat := []
  /-- Closed packets that wait for room (R105), each with the thread that closed it. -/
  waiting : List (Nat × Packet) := []
  /-- An NVFREE that waits for commands outstanding (R110), with the reference count of die 0 at which it began. -/
  closing : Option (CallSrc × Nat) := none
  deriving DecidableEq, Repr

/-- A call record (R79): TAG, caller and arguments. -/
structure CallRec where
  tag : Nat
  gid : Nat
  /-- Thread that gave it. -/
  tid : Nat
  callno : Nat
  resBase : Nat
  nres : Nat
  args : List W64
  /-- Launch sequence number. -/
  seq : Nat
  /-- Token armed, if any (R428). -/
  tok : Option Nat
  /-- Written to the ring, taken by a service core, answered. -/
  posted : Bool := false
  taken : Bool := false
  /-- A reply kept for a halted group (R82, R428). -/
  reply : Option (List W64) := none
  deriving DecidableEq, Repr

/-- A page-table leaf or absent entry (R86, R87), with the kept attributes of an absent one. -/
structure PageEnt where
  valid : Bool
  /-- Size code 0 to 3 (64 KiB to 16 GiB). -/
  size : Nat := 0
  state : Nat := 0
  fix : Bool := false
  reach : Nat := 0
  owner : Nat := 0
  /-- Physical address of the leaf, or the lower-tier slot. -/
  addr : Nat := 0
  kind : Nat := 0
  xe : Bool := false
  w : Bool := false
  rd : Bool := false
  deriving DecidableEq, Repr

/-- An ownership-table entry (R89). -/
structure Own where
  owner : Nat := 127
  epoch : Nat := 0
  fix : Bool := false
  ref : Bool := false
  dirty : Bool := false
  gen : Nat := 0
  maps : Nat := 0
  deriving DecidableEq, Repr

/-- A fault entry pending for a page (R94, R95). -/
structure PageWait where
  source : Nat
  access : Nat
  merge : Nat
  die : Nat
  core : Nat
  seq : Nat
  held : Nat
  /-- Its place in the fault queue's ring, once it is there. -/
  posted : Option Nat
  deriving DecidableEq, Repr

/-- The 64 KiB content of a lower-tier slot: bytes and poisoned sectors by offset (R93, R296). -/
structure Image where
  bytes : Tab Byte
  poison : List Nat
  deriving DecidableEq, Repr

/-- A generation (R181). -/
structure Gen where
  num : Nat
  state : Nat
  /-- Launch of a launch generation (state 5). -/
  launch : Nat := 0
  /-- The number of the drained generation that this one records unchanged granules by reference to (R186): its serial. -/
  ref : Option Nat := none
  /-- Aside copies: page to DRAM frame (R185). -/
  asides : Tab Nat := []
  /-- Pages whose content at the cut is still their current content. -/
  shared : List Nat := []
  /-- Frames of pages that have been unmapped and that it still needs: page to DRAM frame (R190). -/
  held : Tab Nat := []
  /-- Pages written to the lower tier: page to slot (R186). -/
  drained : Tab Nat := []
  /-- Of those that were aside copies, the pages whose copy does not pass its digest, tried three times (R56, R96). -/
  bad : List Nat := []
  deriving DecidableEq, Repr

/-- An entry of the deferred-reclaim list (R220). -/
structure Reclaim where
  /-- Launch sequence number of CREATOR and the die whose Flue accepted it. -/
  creator : Nat
  die : Nat
  joined : Bool := false
  redo : Bool := false
  found : Nat := 0
  /-- A search of the name is running (its id), or a completion waits for room. -/
  running : Bool := false
  complete : Bool := false
  deriving DecidableEq, Repr

/-- The energy account of a partition, the auditor space or the device (R311). -/
structure Energy where
  /-- Total, six parts and replay, in µJ, as bytes 64 to 127 of a reading (R313). -/
  fields : List W64
  /-- Fractions of a µJ carried, by field (R311). -/
  carry : Tab Nat
  deriving DecidableEq, Repr

/-- A partition, or the auditor space at key 64. -/
structure Part where
  live : Bool := false
  migpol : Nat := 0
  callk : Nat := 250
  faultk : Nat := 250
  burst : Nat := 0
  guar : Nat := 0
  scrcap : Nat := 0
  slice : Nat := 1000
  maxcls : Nat := 3
  weight : Nat := 1
  sceil : Nat := 6
  trctl : W64 := 0
  traceDropped : Nat := 0
  /-- Key epoch (R57), and the numbers of its data key and its bond key (R55). -/
  epoch : BitVec 16 := 0
  key : Nat := 0
  bond : Nat := 0
  /-- The next TAG of a call (R80, R428). -/
  nextTag : Nat := 0
  launchSeq : Nat := 0
  resets : W64 := 0
  /-- A sealed act under way: a reset or a migration phase (R49, R68). -/
  sealed : Bool := false
  /-- RESET commands that wait for the reset under way (R63). -/
  resetters : Nat := 0
  /-- Migration (R66): 0 none, 1 pre-copy, 4 freezing, 2 frozen at the source, 3 at the destination with pulls outstanding (R97). -/
  migrating : Nat := 0
  /-- Pulls of a page whose digest has failed (R96), by page. -/
  pulls : Tab Nat := []
  /-- The draw of the nonce under which the destination's report was fetched (R66 step 1). -/
  migNonce : Nat := 0
  /-- Migration at the source (R60, R66): what was sent of pages while the partition runs, by page, and how many pages
  and bytes were sent. -/
  copied : Tab Image := []
  sentPages : Nat := 0
  sentBytes : Nat := 0
  /-- A request for frames that found none and waits: how many, and the log2 of their alignment (R92). -/
  frameWait : Option (Nat × Nat) := none
  /-- Since when the source of a post-copy pull has not answered (R98), by the reference count of die 0. -/
  pullAsked : Nat := 0
  gens : Tab Gen := []
  nextSerial : Nat := 1
  reclaims : Tab Reclaim := []
  energy : Energy := ⟨[], []⟩
  /-- Digest of the last reading report and counts for readings (R313). -/
  lastReading : List Byte := []
  calls : Tab CallRec := []
  /-- Deficits of the call flow and the fault flow (R83). -/
  flowCall : Nat := 0
  flowFault : Nat := 0
  deriving DecidableEq, Repr

/-- A slice of a space on a core (R145). -/
structure Slice where
  start : Nat
  ended : Bool := false
  deriving DecidableEq, Repr

/-- The dispatch state of a Flue (R132): ring position, whether it is in the middle of a visit to the partition there, and deficits by
space. -/
structure Flue where
  ring : Nat := 0
  visit : Bool := false
  deficit : Tab Nat := []
  deriving DecidableEq, Repr

/-- A slice of a collective (R269, R270). -/
structure CSlice where
  gid : Nat
  tid : Nat
  first : Nat
  count : Nat
  /-- Virtual address of the barrier object, or none. -/
  barrier : Option Nat
  tok : Option Nat
  /-- Stamp at which it was supplied: earlier accesses of its thread come before every element read (R276). -/
  at' : Nat := 0
  /-- Units still to land, as half-open ranges of linear destination indices. -/
  left : List (Nat × Nat) := []
  /-- Units that lie in two sectors and of which one part has landed: the unit, and whether it is the upper part (R271). -/
  half : List (Nat × Bool) := []
  deriving DecidableEq, Repr

/-- A parked element (R277): slice, unit, kind, side, faulting address. -/
structure Park where
  slice : Nat
  unit : Nat
  kind : Nat
  side : Nat
  va : Nat
  deriving DecidableEq, Repr

/-- A collective copy (R270, R273). -/
structure Coll where
  core : Nat
  slot : Nat
  space : Nat
  launch : Nat
  /-- Key of the workgroup: instance and workgroup of the launch. -/
  wg : Nat
  handle : Nat
  gather : Bool
  /-- The 64 bytes of the layout record as read by the first supplier. -/
  record : List Byte
  /-- Index list of a GCOPY, read at the start (R272); 2 ^ 32 stands for an entry that could not be read. -/
  idx : List Nat := []
  slices : List CSlice := []
  started : Bool := false
  parked : List Park := []
  /-- The parked elements of the open report, and the thread that has it (R277). -/
  report : List Park := []
  reportTo : Option Nat := none
  /-- The destination tile of a DKIND-1 record, as it was checked at the start (R267): its group and the tile record. -/
  tile : Option (Nat × BitVec 256) := none
  /-- Forwarded elements that have asked for a page: unit and page (R87, R95). -/
  asked : List (Nat × Nat) := []
  /-- Blocks of 256 bytes of host memory whose responses have arrived, and those whose requests had none (R43, R44). -/
  got : List Nat := []
  lost : List Nat := []
  deriving DecidableEq, Repr

/-- A plane (R251): tag, offset k0, E, codes at key column * 128 + j, masks at key column * 32 + g (for a sparse plane). -/
structure Plane where
  tag : BitVec 256
  k0 : Nat
  e : Nat
  codes : Tab Nat
  masks : Tab Nat
  deriving DecidableEq, Repr

/-- An accumulator (R254, R261): entries at key row * 256 + column, checksums by row, and the state word. -/
structure Acc where
  entries : Tab W96 := []
  sums : Tab W96 := []
  blank : Bool := true
  gerr : Bool := false
  inexact : Bool := false
  nan : Bool := false
  ovf : Bool := false
  h : BitVec 8 := 0
  anchor : BitVec 16 := 0
  deriving DecidableEq, Repr

/-- A queued matrix operation (R262), with what it read at issue. -/
inductive MatOp where
  | mloadw (rec : BitVec 256) (k0 e : Nat)
  | mswap
  /-- One member's part of an MMA (R256, R259): the block, the activation tile of its row group, the member's group and the
  activation rows' group, and the issuer's E, weight format and activation format, if the group of its own rows lived. -/
  | mma (block : List Byte) (tile : BitVec 256) (gid actGid e wfmt : Nat) (afmt : Option Nat)
  | mhad (src dst : BitVec 256) (n : Nat)
  | mzero (acc : Nat)
  | mdrain (acc : Nat) (dst : Nat) (first count fmt : Nat) (sat : Bool)
  | mread (acc row col : Nat) (fill : Nat)
  deriving DecidableEq, Repr

/-- A queued operation: its thread, its token, the tile registers it names, and the age stamp of its issue. -/
structure MatEnt where
  tid : Nat
  tok : Option Nat
  tiles : List Nat := []
  stamp : Nat := 0
  op : MatOp
  deriving DecidableEq, Repr

/-- A TLOAD whose bytes are landing (R408): its thread, the physical address of the source, the byte offset in its group's
operand-buffer range, the barrier object, and the sectors still to land as half-open ranges. Without a barrier its thread
stands at the TLOAD, suspended. -/
structure TLoad where
  tid : Nat
  src : Nat
  base : Nat
  barrier : Option Nat
  left : List (Nat × Nat)
  deriving DecidableEq, Repr

/-- A SIGRD that waits for its report (R431): the physical address of the buffer, the nonce, and the subject. -/
structure SigReq where
  buf : Nat
  nonce : List Byte
  subject : Nat
  deriving DecidableEq, Repr

/-- A stop under way (R308, R360): the group of the slot, the dump address and length, and who waits for its completion;
`none` for HALT. -/
structure StopReq where
  gid : Nat
  addr : Nat
  len : Nat
  who : Option Who
  deriving DecidableEq, Repr

/-- What verified issue finds at the next instruction of pipe class V of a core (R294): a datapath lane whose result disagrees, or, with
`triple`, three results in the lane that all differ. -/
structure Verify where
  lane : Nat
  triple : Bool
  deriving DecidableEq, Repr

/-- A search in flight (R223): the fills that take its result, or a re-search of the list, and the pins that stood when it
began, by the key of the pin register. -/
structure Search where
  space : Nat
  name : Nat
  core : Nat
  fills : List Nat
  /-- It serves a RECLAIM whose threads may have exited since; a re-search serves none (R220). -/
  first : Bool := true
  pins : List Nat := []
  deriving DecidableEq, Repr

/-- A link (R42, R46): flits corrected, the eye margin of each lane that has been estimated, retrains, rate, state, and
whether it is in power state L1. -/
structure Link where
  corr : Nat := 0
  margins : Tab Nat := []
  l1 : Bool := false
  retry : Nat := 0
  rate : Nat := 0
  state : Nat := 0
  deriving DecidableEq, Repr

/-- A clock island (R30 to R33). -/
structure Island where
  ceil : Nat := 0
  therm : Nat := 0
  wdrawn : Bool := false
  relock : Bool := false
  /-- Reference count of die 0 since which its sensor has stayed below the limit (R31). -/
  below : Nat := 0
  deriving DecidableEq, Repr

/-- A request outstanding at a Rinnor port (R43): the fill or the store it serves, its place, and the reference count of die 0
at which it went out. -/
structure PortReqOut where
  tag : Nat
  bytes : Nat
  id : Nat
  isStore : Bool
  pa : Nat
  sent : Nat
  deriving DecidableEq, Repr

/-- A session of a client window (R48, R59): its authority, its key, and the messages counted in each direction. -/
structure Session where
  who : Who
  key : List Byte := []
  received : Nat := 0
  sent : Nat := 0
  deriving DecidableEq, Repr

/-- What a port answers to a request from outside (R45, R47): at Rinnor port 0 to 7 by client window, at the storage port (8) by function,
whether it is an error, and the bytes. -/
structure PortReply where
  port : Nat
  from' : Nat
  error : Bool
  bytes : List Byte
  deriving DecidableEq, Repr

/-- A reply to a command or a hypervisor call from a session (R49): status and values, in order of completion. -/
structure Reply where
  who : Who
  status : Nat
  values : List W64
  bytes : List Byte := []
  deriving DecidableEq, Repr

/-- An operator notice (R61, R62). `event` 0 for a notice of a launch. -/
structure Notice where
  cls : Nat
  part : Nat
  die : Nat
  count : Nat
  handle : Nat
  seq : Nat
  ref : W64
  event : Nat
  detail : Nat
  deriving DecidableEq, Repr

/-- A partition's state in transit (R66). -/
structure MigImage where
  p : Nat
  part : Part
  groups : Tab Group
  threads : Tab Thread
  launches : Tab Launch
  vreg : Tab W32
  preg : Tab Byte
  ureg : Tab W64
  treg : Tab (BitVec 256)
  pinreg : Tab W64
  accs : Tab Acc
  planesA : Tab Plane
  planesS : Tab Plane
  opbuf : Tab Byte
  pages : Tab PageEnt
  /-- Pages that were sent, and the lower-tier copies that it names: page to image, slot to image. -/
  data : Tab Image
  slots : Tab Image
  queues : Tab Queue
  colls : Tab Coll
  stores : Tab PStore
  pinDir : Tab W64
  fullUnits : List Nat
  /-- Scratchpad frames: those it holds, and those granted by SALLOC. -/
  scratch : List Nat
  grants : List Nat
  waits : Tab PageWait
  more : List (Nat × PageWait)
  bars : Tab Nat
  ctrs : Tab W64
  lcb : Tab (BitVec 56)
  stamp : Nat
  /-- The key transfer (R66 step 4): the nonce of step 1, the source's ephemeral public key, the wrapped data key, the manifest, and
  the signature of the source's attestation key over them. -/
  nonce : List Byte := []
  ephemeral : List Byte := []
  wrapped : List Byte := []
  manifest : List Byte := []
  signature : List Byte := []
  /-- A page or row of it has arrived with a digest that fails, and counts as not received (R56). -/
  missing : Bool := false
  /-- Where the destination places its groups (R60, R136): the core here of each core there; one not listed keeps its number
  (log 45). -/
  cores : Tab Nat := []
  deriving DecidableEq, Repr

/-- The package around the cores (02, 03, 16). -/
structure Pkg where
  supply : Bool
  stage : Nat
  emberDie : Nat
  fullDie : BitVec 4
  stackOk : BitVec 4
  clusters : BitVec 32
  passed : BitVec 32
  /-- Failed trainings of each stack; stacks that failed three times, and dies that have been withdrawn (R37, R41). -/
  trainings : Tab Nat
  failed : BitVec 4
  gone : BitVec 4
  ember : Bool
  islands : Tab Island
  links : Tab Link
  ports : Tab (List PortReqOut)
  boots : Nat
  reportSeq : Nat
  readingSeq : Nat
  /-- Signed readings given out, and the digest of the last one of the device account (R63, R66, R313). -/
  readings : List (List Byte)
  lastReading : List Byte
  portOut : List PortReply
  /-- The Soot record as the non-volatile store holds it, its counters up to now, and the reference count of die 0 up to which the
  times at each step are counted (R310). -/
  soot : Tab Nat
  sootLive : Tab Nat
  sootMark : Nat
  notices : List Notice
  noticesDropped : Nat
  /-- Sessions by client window, and the challenge nonce that stands for a window without one (R48, R59). -/
  sessions : Tab Session
  challenges : Tab (List Byte)
  /-- Draws made from the service die's random source (R55). -/
  draws : Nat
  /-- Space and Rinnor port bound to each client window (R45). -/
  windows : Tab (Nat × Nat)
  /-- The identity key accepts no further use, and the boot count over which it signed the boot certificate (R69). -/
  identityUsed : Bool
  bootCert : Option Nat
  /-- Data key and bond key of the device system, by number (R55). -/
  sysKey : Nat
  sysBond : Nat
  /-- First of the 262,144 frames reserved to space 65, once there is DRAM (R76, R89). -/
  reserve : Option Nat
  /-- The lower tier can be reached (R99, R186). -/
  tierUp : Bool
  replies : List Reply
  /-- Kindling core to queue set (R74). -/
  kindling : List KindSet
  audcap : Nat
  /-- The flow that the service arbiter served last: space * 2, and + 1 for faults (R83). -/
  arbiter : Nat
  /-- Functions behind the storage port (R112). -/
  functions : List PciFn
  /-- Storage-port stores that went out: address and word (R113). -/
  bells : List (Nat × W32)
  /-- Network entries sent, and migration images sent and arrived. -/
  netOut : List (List Byte)
  migOut : List MigImage
  migIn : List MigImage
  /-- Clusters whose groups are halted for an in-field test, and those of them whose test has begun (R151). -/
  tests : List Nat
  testing : List Nat
  energy : Energy
  deriving DecidableEq, Repr

/-- A register of the command interface (R51, R52). -/
inductive Reg where
  | ctl (r : CtlReg)
  | pframes (p : Nat)
  | trctl (p : Nat)
  | islop (i : Nat)
  deriving DecidableEq, Repr

/-- What reaches the device from outside, or happens in it, beside the rows of spec/opcode_table.json. -/
inductive Outside where
  /-- A session reads a register (R8, R52). -/
  | readReg (who : Who) (r : Reg)
  /-- A session reads a counter of R301, by its number (R8, R154). -/
  | readCount (who : Who) (n : BitVec 32)
  /-- A session's command that names no service (R49). -/
  | unknown (who : Who)
  /-- The device challenges a client window, or a session closes (R48). -/
  | challenge (window : Nat)
  | closeSession (window : Nat)
  /-- The device operating system binds a client window to a space, on a port (R45). -/
  | bindWindow (window space : Nat) (port : Fin 8)
  /-- A session asks for the X.509 chain of the identity key (R69). -/
  | chain (who : Who)
  /-- Flits of a link are corrected (R42); the eye monitor of a lane gives an estimate (R40). -/
  | corrected (k : Fin 17) (n : Nat)
  | eye (k : Fin 17) (lane : Fin 64) (margin : BitVec 8)
  /-- A scrub pass over a place of section 1 of the Soot record has corrected some sectors and found some poisoned; an island is in a
  temperature bin (R296, R310). -/
  | scrubbed (index : Fin 36) (corrected found : Nat)
  | temperature (island : Fin 40) (bin : Fin 16)
  /-- The training of a stack succeeds (R37). -/
  | stackTrained (d : Fin 4)
  /-- The storage port's link trains at a rate step, and enters or leaves L1 (R46). -/
  | rootRate (rate : Fin 7)
  | rootL1 (on : Bool)
  /-- A page of a partition travels while it runs (R66); the operator reads the progress (R60). -/
  | precopy (p page : Nat)
  | progress (p : Nat)
  /-- The source answers a pull of a page of a partition; the destination has pulled the last one (R60, R66). -/
  | pulled (p : Nat)
  | lastPulled (p : Nat)
  /-- The source abandons a migration whose partition is here or on its way (R68). -/
  | abandoned (p : Nat)
  /-- A page or row of an arriving image fails its digest; it arrives again (R56). -/
  | arrivalBad (k : Nat)
  | arrivalAgain (k : Nat)
  /-- A pull of a page from the lower tier fails its digest (R56, R96). -/
  | pullBad (p page : Nat)
  /-- The sealed copy of a page in a generation fails its digest three times (R56, R185). -/
  | copyBad (p serial page : Nat)
  /-- The lower tier is reached, or no longer (R99). -/
  | tier (up : Bool)
  /-- The next vector issue of a core meets a disagreement of verified issue (R294). -/
  | verify (core : Fin 256) (lane : Fin 64) (triple : Bool)
  deriving DecidableEq, Repr

/-- The issue group that executes (R139): core, code address of the instruction, its 96 bits, and its threads in ascending
lane order. -/
structure Ctx where
  core : Nat
  space : Nat
  pc : Addr
  raw : Nat
  lanes : List Nat
  /-- The line is of kind 01 (R316). -/
  last : Bool
  /-- The slot that follows forms a pair with this one (R323). -/
  first : Bool
  /-- The slot is marked as a target (R316, R317). -/
  tgt : Bool := true
  /-- The age stamp at which it issued: it tells one issue from another. -/
  serial : Nat := 0
  deriving DecidableEq, Repr

/-- What moves next (log 3). -/
inductive Act where
  /-- A device operation or event happens. -/
  | ev (i : Instr)
  /-- Something that is no row of the opcode table happens. -/
  | dev (d : Outside)
  /-- A core issues its ready threads at a code address. -/
  | issue (core : Nat) (addr : Addr) (space : Nat)
  /-- The second slot of a pair issues for the threads that the first left there (R323). -/
  | pair (core : Nat) (addr : Addr) (space : Nat) (lanes : List Nat)
  /-- Reference ticks pass on every die (R152). -/
  | elapse (n : Nat)
  deriving DecidableEq, Repr

/-- The state of the package. -/
structure State where
  pkg : Pkg
  /-- Physical memory: address and byte; an unlisted address reads 0 (log 2). -/
  mem : List Host.Cell
  /-- Operand buffers: core * 2^21 + offset (R2). -/
  opbuf : Tab Byte
  /-- Poisoned sectors (R296). -/
  poison : List Nat
  /-- Full units of scratchpad (R127). -/
  fullUnits : List Nat
  /-- Pages by space * 2^40 + page number of the first page of the leaf. -/
  pages : Tab PageEnt
  /-- Page tables (R84, R85): where the table of a level over an address prefix lies, as an offset from the base of the tables, by
  (space * 5 + level) * 2^32 + prefix. The root of a space is its table of level 0. -/
  tables : Tab Nat
  /-- Ownership table: DRAM frames 0 to 12,582,911, scratchpad frames from 12,582,912 (R89). -/
  own : Tab Own
  clock : Nat
  /-- The slot that held the content of a DRAM frame when the frame was last not DIRTY (R89, R93). -/
  seals : Tab Nat
  slots : Tab Image
  nextSlot : Nat
  /-- Pending pages by space * 2^40 + page (R95). -/
  pageWaits : Tab PageWait
  /-- Entries beyond the 1,024 that the merge table of a space holds, each by the key of its page (R95). -/
  pageMore : List (Nat × PageWait)
  parts : Tab Part
  /-- Bound queues by space * 65536 + HANDLE. -/
  queues : Tab Queue
  launches : Tab Launch
  flues : Tab Flue
  slices : Tab Slice
  /-- SALLOC grants: frame to space (R177). -/
  grants : Tab Nat
  groups : Tab Group
  threads : Tab Thread
  /-- The Grate of each core (R138). -/
  grates : Tab (List GrateEnt)
  vreg : Tab W32
  preg : Tab Byte
  ureg : Tab W64
  treg : Tab (BitVec 256)
  pinreg : Tab W64
  /-- Pins of spilt groups, by the key of the pin register (R215). -/
  pinDir : Tab W64
  accs : Tab Acc
  planesA : Tab Plane
  planesS : Tab Plane
  fills : Tab Fill
  stores : Tab PStore
  colls : Tab Coll
  tloads : Tab TLoad
  /-- Matrix operations queued, by core (R262). -/
  matq : Tab (List MatEnt)
  searches : Tab Search
  /-- Waiting SIGRDs by thread, and stops that have not been completed, oldest first. -/
  sigrds : Tab SigReq
  stops : List StopReq
  /-- Phases passed of BAR.LEVEL k by instance (R362). -/
  bars : Tab Nat
  /-- Counters of R301, 64 bits each, by counter number. -/
  ctrs : Tab W64
  /-- Bounds of the lane-class bins (R303): (space * 16 + bin) * 2, and + 1 for HI. -/
  lcb : Tab (BitVec 56)
  /-- Issue slots that have issued, by core; the others were idle (R302). -/
  issued : Tab W64
  /-- Disagreements of verified issue that the next vector issue of a core meets (R294). -/
  verify : Tab Verify
  /-- Work of the interval under way, by which energy is attributed (R311): by row of the rule's table, island, space and launch
  (`workKey`). -/
  work : Tab Nat
  /-- Reference count by die (R152), and cycle count by cluster (R33). -/
  refCount : Tab W64
  coreCycle : Tab W64
  /-- Trace group selected, by core * 128 + space (R305). -/
  traceSel : Tab Nat
  /-- The model's own: the next age stamp and the next id (log 3). -/
  stamp : Nat
  agenda : List Act
  cur : Ctx
  deriving DecidableEq, Repr

/-- Why a step stops. -/
inductive Fault where
  /-- Raised by `step` alone, when the package has no supply (R310) and no event of the agenda restores it: safe, since the
  spec describes nothing that an unpowered package does. -/
  | unpowered
  deriving DecidableEq, Repr

/-- Why an instruction has no meaning here. -/
inductive Refusal where
  /-- Raised by an arm of `exec` whose instruction has no meaning yet: safe, since nothing is said of it. -/
  | notModelled (mnemonic : String)
  deriving DecidableEq, Repr

/-- A partition at reset: not live; its generation 0 opens when it is created (R181). -/
def Part.reset : Part := {}

/-- The auditor space at reset: it always exists, its ceiling is the device (R209, R434), and it has generation 0. -/
def Part.auditor : Part := { live := true, sceil := 5, key := 2, bond := 3, gens := [(0, { num := 0, state := 1 })] }

/-- The package right after reset: supplied, at stage 0, nothing tested or trained (R34, R37); log 1 names the values the
spec does not give. -/
def Pkg.reset : Pkg :=
  { supply := true, stage := 0, emberDie := 0, fullDie := 0, stackOk := 0, clusters := 0, passed := 0, trainings := [], failed := 0, gone := 0,
    ember := false, islands := [], links := [], ports := [], boots := 0, reportSeq := 0, readingSeq := 0, soot := [], sootLive := [], sootMark := 0, readings := [], lastReading := [], portOut := [],
    notices := [], noticesDropped := 0, sessions := [], challenges := [], draws := 4, windows := [], identityUsed := true, bootCert := some 0,
    sysKey := 0, sysBond := 1, reserve := none, tierUp := true, replies := [],
    kindling := List.replicate 48 .service ++ List.replicate 8 .drain ++ List.replicate 4 .storage ++
      List.replicate 4 .network,
    audcap := 65536, arbiter := 0, functions := [], bells := [], netOut := [], migOut := [], migIn := [], tests := [], testing := [],
    energy := ⟨[], []⟩ }

/-- The machine right after reset (R34, R37, R76, R89, R127, R152, R156): nothing placed, nothing mapped, every control
register at its reset value. A register not listed in a table reads its reset value (Machine/Ops.lean). -/
def State.reset : State :=
  { pkg := Pkg.reset, mem := [], opbuf := [], poison := [], fullUnits := [], pages := [], tables := [], own := [], clock := 0, seals := [], slots := [],
    nextSlot := 1, pageWaits := [], pageMore := [], parts := [(64, Part.auditor)], queues := [], launches := [], flues := [], slices := [],
    grants := [], groups := [], threads := [], grates := [], vreg := [], preg := [], ureg := [], treg := [], pinreg := [], pinDir := [],
    accs := [], planesA := [], planesS := [], fills := [], stores := [], colls := [], tloads := [], matq := [], searches := [], sigrds := [], stops := [], bars := [],
    ctrs := [], lcb := [], issued := [], verify := [], work := [], refCount := [], coreCycle := [], traceSel := [], stamp := 1,
    agenda := [], cur := { core := 0, space := 0, pc := 0, raw := 0, lanes := [], last := false, first := false } }

end Sys2Proof.Machine
end

