-- ==== Sys2Proof/Machine/Table.lean ====
section
/-! DEFINITION. Operations of the sparse tables the state is made of: find, put and erase by key. A table is canonical when
its keys strictly rise; every operation here keeps that (Sys2Proof/Laws/Table.lean). -/
namespace Sys2Proof

/-- The entry of key `k`. -/
def Tab.find {α : Type} : Tab α → Nat → Option α
  | [], _ => none
  | (j, v) :: r, k => if j = k then some v else Tab.find r k

/-- The entry of key `k`, or `d` where none is listed. -/
def Tab.getD {α : Type} (t : Tab α) (k : Nat) (d : α) : α := (t.find k).getD d

/-- Sets the entry of key `k`, in key order. -/
def Tab.put {α : Type} : Tab α → Nat → α → Tab α
  | [], k, v => [(k, v)]
  | (j, w) :: r, k, v =>
    if j = k then (k, v) :: r else if k < j then (k, v) :: (j, w) :: r else (j, w) :: Tab.put r k v

/-- Removes the entry of key `k`. -/
def Tab.erase {α : Type} (t : Tab α) (k : Nat) : Tab α := t.filter (fun e => e.1 != k)

/-- Sets key `k` to `v`, where `z` is what an unlisted key reads as: writing `z` removes the entry. -/
def Tab.putZ {α : Type} [DecidableEq α] (z : α) (t : Tab α) (k : Nat) (v : α) : Tab α :=
  if v = z then t.erase k else t.put k v

/-- Changes the entry of key `k`, if it is listed. -/
def Tab.upd {α : Type} (t : Tab α) (k : Nat) (f : α → α) : Tab α :=
  match t.find k with
  | some v => t.put k (f v)
  | none => t

/-- Keeps the entries whose key and value meet `f`. -/
def Tab.keep {α : Type} (t : Tab α) (f : Nat → α → Bool) : Tab α := t.filter (fun e => f e.1 e.2)

/-- Changes every entry. -/
def Tab.mapVals {α β : Type} (t : Tab α) (f : α → β) : Tab β := t.map (fun e => (e.1, f e.2))

/-- A key above every key of the table. -/
def Tab.nextKey {α : Type} (t : Tab α) : Nat := t.foldl (fun m e => max m (e.1 + 1)) 0

/-- Keys strictly rise: the canonical form of a table. -/
def Tab.sorted {α : Type} : Tab α → Bool
  | [] => true
  | [_] => true
  | (j, _) :: (k, v) :: r => j < k && Tab.sorted ((k, v) :: r)

/-- The canonical form of a table whose unlisted keys read `z`: keys strictly rise and no entry holds `z`. -/
def Tab.wf {α : Type} [DecidableEq α] (z : α) (t : Tab α) : Bool := t.sorted && t.all (fun e => e.2 != z)

/-- Inserts a number into a rising list. -/
def insertAsc (x : Nat) : List Nat → List Nat
  | [] => [x]
  | y :: r => if x = y then y :: r else if x < y then x :: y :: r else y :: insertAsc x r

/-- 0, 1, …, n - 1. -/
def upTo (n : Nat) : List Nat := List.range n

end Sys2Proof
end

