-- ==== Sys2Proof/Machine/Memory.lean ====
section
/-! DEFINITION. Physical memory, frames, poisoned sectors, pages and translation (R9, R57, R84 to R89, R171 to R174, R193,
R296). -/
namespace Sys2Proof.Machine

/-- The base of physical scratchpad, of the flat range and of the local alias (R171, R172). -/
def scratchBase : Nat := 0x8000000000000
def flatBase : Nat := 0x00F0000000000000
def aliasBase : Nat := 0x00F8000000000000
def scratchSize : Nat := 0x80000000
def dramFrames : Nat := 12582912
def frameBytes : Nat := 65536
/-- Virtual addresses have 56 bits (R4). -/
def vaMod : Nat := 2 ^ 56

/-- The canonical form of memory: addresses strictly rise and no entry holds 0, which an unlisted address reads (log 2). -/
def Memory.wf (m : List Host.Cell) : Bool := Tab.wf (0 : Byte) m

/-- One byte of physical memory. -/
def State.rdByte (s : State) (a : Nat) : Byte := Tab.getD s.mem a 0
def State.wrByte (s : State) (a : Nat) (b : Byte) : State := { s with mem := Tab.putZ 0 s.mem a b }

/-- Little-endian value of bytes (R9). -/
def leNat : List Byte → Nat
  | [] => 0
  | b :: r => b.toNat + 256 * leNat r
/-- The `n` bytes of a value, little-endian. -/
def toLE : Nat → Nat → List Byte
  | 0, _ => []
  | n + 1, x => BitVec.ofNat 8 x :: toLE n (x / 256)
/-- Field of `n` bytes at offset `o` of a byte list. -/
def fieldLE (l : List Byte) (o n : Nat) : Nat := leNat ((l.drop o).take n)

def State.rdBytes (s : State) (a n : Nat) : List Byte := (upTo n).map (fun i => s.rdByte (a + i))
def State.wrBytes (s : State) (a : Nat) : List Byte → State
  | [] => s
  | b :: r => State.wrBytes (s.wrByte a b) (a + 1) r

/-- Removes every listed byte of [lo, hi): the range reads zero. -/
def State.zeroMem (s : State) (lo hi : Nat) : State := { s with mem := Tab.keep s.mem (fun a _ => a < lo || hi ≤ a) }

/-- The frame of a physical address: DRAM frames, then scratchpad frames (R89, R172). -/
def frameOf (pa : Nat) : Option Nat :=
  if pa / frameBytes < dramFrames then some (pa / frameBytes)
  else if scratchBase ≤ pa ∧ pa < scratchBase + scratchSize then some (dramFrames + (pa - scratchBase) / frameBytes)
  else none
/-- The physical address of a frame. -/
def frameAddr (f : Nat) : Nat := if f < dramFrames then f * frameBytes else scratchBase + (f - dramFrames) * frameBytes

/-- Frames reserved to space 65: the ownership table, the page tables and what the device system keeps (R76, R89). -/
def reserveFrames : Nat := 262144
def State.reserved (s : State) (f : Nat) : Bool := match s.pkg.reserve with | some r => r ≤ f && f < r + reserveFrames | none => false
/-- The ownership-table entry of a frame (R89); the reserve's frames are fixed frames of space 65. -/
def State.frame (s : State) (f : Nat) : Own := s.own.getD f (if s.reserved f then { owner := 65, fix := true } else {})
def State.setFrame (s : State) (f : Nat) (o : Own) : State := { s with own := Tab.putZ {} s.own f o }
def State.part (s : State) (p : Nat) : Part := s.parts.getD p {}
def State.updPart (s : State) (p : Nat) (f : Part → Part) : State := { s with parts := s.parts.upd p f }
def State.setPart (s : State) (p : Nat) (x : Part) : State := { s with parts := s.parts.put p x }

/-- A frame last written under another key epoch of its owner (R57). -/
def State.stale (s : State) (f : Nat) : Bool :=
  let o := s.frame f
  o.owner ≤ 64 && o.epoch != (s.part o.owner).epoch.toNat % 16

/-- Reads `n` bytes of physical memory as a program's access finds them: a stale frame reads zero (R57). -/
def State.load (s : State) (pa n : Nat) : List Byte :=
  match frameOf pa with
  | some f => if s.stale f then List.replicate n 0 else s.rdBytes pa n
  | none => s.rdBytes pa n

/-- Sectors that a write of `n` bytes at `pa` covers whole lose their poison (R296). -/
def State.unpoison (s : State) (pa n : Nat) : State :=
  { s with poison := s.poison.filter (fun k => !(pa ≤ 32 * k && 32 * k + 32 ≤ pa + n)) }

/-- Whether a physical address lies in the stack or the scratchpad of a die that has been withdrawn (R37, R38, R41). -/
def State.lostDie (s : State) (pa : Nat) : Bool :=
  (pa / frameBytes < dramFrames && s.pkg.gone.getLsbD (pa / 0x3000000000)) ||
  (scratchBase ≤ pa && pa < scratchBase + scratchSize && s.pkg.gone.getLsbD ((pa - scratchBase) / 2 ^ 29))
/-- Whether an access of `n` bytes at `pa` reads a poisoned sector (R296), or what is lost with a die (R38, R41); a stale frame reads
zeros (R57), whatever stood in it. -/
def State.poisoned (s : State) (pa n : Nat) : Bool :=
  (s.poison.any (fun k => pa / 32 ≤ k && k ≤ (pa + n - 1) / 32) &&
    !(match frameOf pa with | some f => s.stale f | none => false)) || s.lostDie pa

/-- Zero-fills a frame under its owner's current key and marks it written under the current epoch (R57, R89). -/
def State.zeroFrame (s : State) (f : Nat) : State :=
  let o := s.frame f
  let s := s.zeroMem (frameAddr f) (frameAddr f + frameBytes)
  let s := { s with poison := s.poison.filter (fun k => !(frameAddr f / 32 ≤ k && k < (frameAddr f + frameBytes) / 32)) }
  s.setFrame f { o with epoch := (s.part o.owner).epoch.toNat % 16, dirty := true }

/-- A migration of the partition has begun to freeze it, or has frozen it (R66). -/
def Part.frozen (p : Part) : Bool := p.migrating == 2 || p.migrating == 4
/-- The number of the current generation of a partition (R181). -/
def Part.curGen (p : Part) : Nat := match p.gens.find? (fun e => e.2.state == 1) with | some e => e.2.num | none => 0

/-- A range of scratchpad becomes zero (R58): its bytes, and the poison of the sectors in it. -/
def State.wipe (s : State) (lo hi : Nat) : State := (s.zeroMem lo hi).unpoison lo (hi - lo)
/-- A write of bytes to physical memory that has been allowed: a stale frame is zero-filled first (R57), the frame becomes
dirty and takes the number of the current generation (R89, R185), and whole sectors lose their poison (R296). -/
def State.store (s : State) (pa : Nat) (bs : List Byte) : State :=
  let s := match frameOf pa with
    | some f =>
      let s := if s.stale f then s.zeroFrame f else s
      let o := s.frame f
      if o.owner ≤ 64 then s.setFrame f { o with dirty := true, ref := true, gen := (s.part o.owner).curGen } else s
    | none => s
  (s.wrBytes pa bs).unpoison pa bs.length

/-- The key of a counter of the Soot record (R310): section, index, and the counter within the 64 bytes. -/
def sootKey (sect index k : Nat) : Nat := (sect * 2 ^ 32 + index) * 64 + k
/-- Adds to a counter of the Soot record, which saturates at `top`. -/
def State.sootAdd (s : State) (sect index k n top : Nat) : State :=
  let key := sootKey sect index k
  { s with pkg.sootLive := s.pkg.sootLive.putZ 0 key (min top (s.pkg.sootLive.getD key 0 + n)) }

/-- The key of a page of a space. -/
def pageKey (space page : Nat) : Nat := space * 2 ^ 40 + page
/-- Pages under a leaf of a size code (R85). -/
def sizePages (c : Nat) : Nat := match c with | 0 => 1 | 1 => 32 | 2 => 16384 | _ => 262144

/-- Bytes of a table of a level: 8,192, 512, 16, 512 and 32 entries of 8 bytes (R85). -/
def tableBytes (level : Nat) : Nat := match level with | 0 => 65536 | 1 => 4096 | 2 => 128 | 3 => 4096 | _ => 256
/-- The pages under one table of a level, and the prefix of a page that names its table: the address bits above those that index
it (R85). -/
def tableSpan (level : Nat) : Nat := match level with | 0 => 2 ^ 40 | 1 => 2 ^ 27 | 2 => 2 ^ 18 | 3 => 2 ^ 14 | _ => 2 ^ 5
def tableKey (space level page : Nat) : Nat := (space * 5 + level) * 2 ^ 32 + page / tableSpan level
/-- The offset of a table, when the space has it. -/
def State.table (s : State) (space level page : Nat) : Option Nat := s.tables.find (tableKey space level page)
/-- The size code of a leaf in a table of a level: level 1 maps 16 GiB, level 2 1 GiB, level 3 2 MiB, level 4 64 KiB (R85). -/
def leafCode (level : Nat) : Nat := 4 - level
/-- A walk from a level on (R85), `n` levels above level 5: the table must be there; a leaf of the level ends it, with the first page
of the leaf. -/
def State.walkFrom (s : State) (space page : Nat) : Nat → Nat → Option (Nat × PageEnt)
  | 0, _ => none
  | n + 1, level =>
    match s.table space level page with
    | none => none
    | some _ =>
      let c := leafCode level
      let b := page - page % sizePages c
      match (if level = 0 then none else s.pages.find (pageKey space b)) with
      | some e => if e.size = c then some (b, e) else State.walkFrom s space page n (level + 1)
      | none => State.walkFrom s space page n (level + 1)
/-- The entry that a walk of `page` ends at, from the root of the space on (R84, R85). -/
def State.walk (s : State) (space page : Nat) : Option (Nat × PageEnt) := s.walkFrom space page 5 0

/-- A free place for a table, aligned to its own size (R85). -/
def State.tablePlace (s : State) (n : Nat) : Nat :=
  let used := s.tables.map (fun e => (e.2, e.2 + tableBytes (e.1 / 2 ^ 32 % 5)))
  let starts := 0 :: used.map (fun r => (r.2 + n - 1) / n * n)
  (starts.filter (fun a => used.all (fun r => r.2 ≤ a || a + n ≤ r.1))).foldl (fun m a => min m a)
    (used.foldl (fun m r => max m ((r.2 + n - 1) / n * n)) 0)
/-- A space has the table of a level over a page: it is made where it is not. -/
def State.makeTable (s : State) (space level page : Nat) : State :=
  match s.table space level page with
  | some _ => s
  | none => { s with tables := s.tables.put (tableKey space level page) (s.tablePlace (tableBytes level)) }
/-- The tables on the way to an entry of a size code are made; those below a larger leaf go (R85, R90). -/
def State.makeTables (s : State) (space page code : Nat) : State :=
  let s := (upTo (5 - code)).foldl (fun s l => s.makeTable space l page) s
  if code = 0 then s
  else { s with tables := Tab.keep s.tables (fun k _ => !(k / 2 ^ 32 / 5 == space && 4 - code < k / 2 ^ 32 % 5 &&
    page ≤ k % 2 ^ 32 * tableSpan (k / 2 ^ 32 % 5) && k % 2 ^ 32 * tableSpan (k / 2 ^ 32 % 5) < page + sizePages code)) }
/-- Every table of a space goes. -/
def State.dropTables (s : State) (space : Nat) : State := { s with tables := Tab.keep s.tables (fun k _ => k / 2 ^ 32 / 5 != space) }
/-- The word of a table's entry for the next table (R86): V 1, LEAF 0 and ADDR alone. -/
def State.tableWord (s : State) (base space level page : Nat) : Nat :=
  match s.table space level page with | some a => 2 ^ 63 + (base + a) | none => 0

def State.setPage (s : State) (space page : Nat) (e : PageEnt) : State :=
  { s.makeTables space page e.size with pages := s.pages.put (pageKey space page) e }
def State.erasePage (s : State) (space page : Nat) : State := { s with pages := s.pages.erase (pageKey space page) }

/-- Splits a leaf above 64 KiB that covers `page` into leaves of 64 KiB (R93). -/
def State.splitLeaf (s : State) (space page : Nat) : State :=
  match s.walk space page with
  | some (b, e) =>
    if e.size = 0 then s
    else (upTo (sizePages e.size)).foldl
      (fun s i => s.setPage space (b + i) { e with size := 0, addr := e.addr + (if e.valid then i * frameBytes else 0) }) s
  | none => s

/-- What a translation of an address finds (R86, R87, R171). -/
inductive Xl where
  | leaf (pa : Nat) (e : PageEnt)
  | absent (e : PageEnt)
  | none
  /-- A breach of R86: an uncorrectable error for the issuer. -/
  | breach
  deriving DecidableEq, Repr

/-- Whether a physical address lies in the region of a KIND (R172). -/
def inRegion (kind pa : Nat) : Bool :=
  match kind with
  | 0 => pa < dramFrames * frameBytes
  | 1 => scratchBase ≤ pa && pa < scratchBase + scratchSize
  | 2 => 0x4000000000000 ≤ pa && pa < 0x8000000000000
  | 3 => 0xD000000000000 ≤ pa && pa < 0xE000000000000
  | 4 => 0xC000000000000 ≤ pa && pa < 0xD000000000000
  | _ => false

/-- The flat address of an alias address as issued by a core (R174); any other address is unchanged. -/
def unalias (core : Option Nat) (va : Nat) : Nat :=
  match core with
  | some c => if aliasBase ≤ va && va < aliasBase + 2 ^ 23 then flatBase + c / 64 * 2 ^ 29 + c % 64 * 2 ^ 23 + (va - aliasBase) else va
  | none => va

/-- Whether an address lies in the flat scratchpad range or in the paged range (R171). -/
def isFlat (va : Nat) : Bool := flatBase ≤ va && va < flatBase + scratchSize
def isPaged (va : Nat) : Bool := va < flatBase

/-- Whether a leaf keeps the rules of R86: a KIND that is not reserved, an address in its region and aligned to its size, and OWNER
that of every frame it covers. -/
def State.leafOk (s : State) (e : PageEnt) : Bool :=
  let n := sizePages e.size
  inRegion e.kind e.addr && inRegion e.kind (e.addr + n * frameBytes - 1) && e.addr % (n * frameBytes) == 0 &&
  (1 < e.kind || (match frameOf e.addr with
    | some f => n ≤ s.own.countP (fun x => f ≤ x.1 && x.1 < f + n && x.2.owner == e.owner)
    | none => false))
/-- Translation of a virtual address by an issuer; `core` is the compute core for which the alias is its own slice. -/
def State.xlate (s : State) (space : Nat) (core : Option Nat) (va : Nat) : Xl :=
  let va := unalias core (va % vaMod)
  if !(isFlat va || isPaged va) then .none
  else match s.walk space (va / frameBytes) with
    | Option.none => .none
    | some (b, e) =>
      if e.valid then
        if s.leafOk e then .leaf (e.addr + (va - b * frameBytes)) e else .breach
      else if e.state = 0 then .none else if e.state ≤ 4 then .absent e else .breach

/-- The physical address of a flat scratchpad address. -/
def flatPa (va : Nat) : Nat := scratchBase + (va - flatBase)

/-- The core whose slice holds a physical scratchpad address. -/
def sliceCore (pa : Nat) : Nat := (pa - scratchBase) / 2 ^ 29 * 64 + (pa - scratchBase) % 2 ^ 29 / 2 ^ 23

/-- Frames of a space: DRAM frames it holds, those with FIX set, and scratchpad frames (R76, R175). -/
def State.resident (s : State) (p : Nat) : Nat := (s.own.filter (fun e => e.1 < dramFrames && e.2.owner == p)).length
def State.fixed (s : State) (p : Nat) : Nat := (s.own.filter (fun e => e.1 < dramFrames && e.2.owner == p && e.2.fix)).length
def State.scrHeld (s : State) (p : Nat) : Nat := (s.own.filter (fun e => dramFrames ≤ e.1 && e.2.owner == p)).length

end Sys2Proof.Machine
end

