-- ==== Sys2Proof/Machine/Granules.lean ====
section
/-! DEFINITION. DRAM frames that are free or taken (R76, R77, R89, R90), the content of granules of 64 KiB (R178), and the
generations that share it: what copies a granule aside, and what keeps it when its page goes (R181 to R190). -/
namespace Sys2Proof.Machine

/-! ## Frames -/

/-- A DRAM frame exists from stage 3 on, in a stack that trained and whose die is in full compute (R35, R37). -/
def State.frameThere (s : State) (f : Nat) : Bool :=
  3 ≤ s.pkg.stage && f < dramFrames && s.pkg.stackOk.getLsbD (f / 3145728) && !s.pkg.gone.getLsbD (f / 3145728)
/-- Frames that a space may hold resident: BURST, or the auditor's cap (R76, R77). -/
def State.frameCap (s : State) (p : Nat) : Nat := if p = 64 then s.pkg.audcap else (s.part p).burst
/-- Fixed frames that a space may hold: GUAR; the auditor space has no other bound than its cap. -/
def State.fixCap (s : State) (p : Nat) : Nat := if p = 64 then s.pkg.audcap else (s.part p).guar
/-- Whether `n` more frames, fixed or not, stay within a space's limits (R90). -/
def State.mayTake (s : State) (p n : Nat) (fix : Bool) : Bool :=
  s.resident p + n ≤ s.frameCap p && (!fix || s.fixed p + n ≤ s.fixCap p)

def roundUp (x k : Nat) : Nat := (x + k - 1) / k * k
/-- The first run of `n` free frames whose start is a multiple of `2 ^ align`, in one stack (R90, R178); none of them is of the
reserve (R76). -/
def State.freeRun (s : State) (n align : Nat) : Option Nat :=
  let taken := s.own.filter (fun e => e.1 < dramFrames && e.2.owner != 127)
  let k := 2 ^ align
  let kept := match s.pkg.reserve with | some r => [(r, r + reserveFrames)] | none => []
  let used := kept ++ taken.map (fun e => (e.1, e.1 + 1))
  let starts := ((upTo 4).map (fun d => 3145728 * d)) ++ used.map (fun r => roundUp r.2 k)
  let ok := fun (f : Nat) => f + n ≤ dramFrames && f / 3145728 == (f + n - 1) / 3145728 && s.frameThere f &&
    used.all (fun r => r.2 ≤ f || f + n ≤ r.1)
  (starts.filter ok).foldl (fun m f => match m with | some g => some (min f g) | none => some f) none
/-- A frame passes to a space, zero-filled under its key (R89). -/
def State.takeFrame (s : State) (p f : Nat) (fix : Bool) : State := (s.setFrame f { owner := p, fix := fix }).zeroFrame f
def State.takeRun (s : State) (p f n : Nat) (fix : Bool) : State := (upTo n).foldl (fun s i => s.takeFrame p (f + i) fix) s
/-- A frame becomes free. -/
def State.giveFrame (s : State) (f : Nat) : State := { s.setFrame f {} with seals := s.seals.erase f }
/-- The slot that holds the content of a frame, while nothing has written the frame since (R89, R93). -/
def State.sealOf (s : State) (f : Nat) : Option Nat := if (s.frame f).dirty then none else s.seals.find f
/-- The content of a frame has been written to a slot, or has come from it: the frame is no longer DIRTY (R89). -/
def State.sealed (s : State) (f slot : Nat) : State :=
  { s.setFrame f { s.frame f with dirty := false } with seals := s.seals.put f slot }
/-- A frame request of a space finds no frame and waits (R92): how many frames, and their alignment. -/
def State.wantFrames (s : State) (p n align : Nat) : State := s.updPart p (fun x => { x with frameWait := some (n, align) })
/-- The request of a space has its frames. -/
def State.gotFrames (s : State) (p : Nat) : State :=
  s.updPart p (fun x => { x with frameWait := none, pullAsked := if x.frameWait = none then x.pullAsked else (s.refCount.getD 0 0).toNat })

/-- Whether a kindling core serves a queue set (R74). -/
def State.served (s : State) (k : KindSet) : Bool := s.pkg.kindling.contains k
/-- Whether the lower tier can be written and read: it is there, and a core of the drain set moves the content (R74, R93, R99). -/
def State.tierServed (s : State) : Bool := s.pkg.tierUp && s.served .drain

/-! ## The content of granules (R178, R296) -/

/-- The content of a physical frame as an image: bytes and poison marks (R186, R296). A stale frame reads zeros (R57). -/
def State.imageOf (s : State) (pa : Nat) : Image :=
  if (match frameOf pa with | some f => s.stale f | none => false) then { bytes := [], poison := [] }
  else
    { bytes := (s.mem.filter (fun e => pa ≤ e.1 && e.1 < pa + frameBytes)).map (fun e => (e.1 - pa, e.2)),
      poison := (s.poison.filter (fun k => pa / 32 ≤ k && k < (pa + frameBytes) / 32)).map (fun k => k - pa / 32) }
/-- Puts an image into a physical frame, written under its owner's current epoch (R57). -/
def State.putImage (s : State) (pa : Nat) (i : Image) : State :=
  let s := match frameOf pa with | some f => s.zeroFrame f | none => s.zeroMem pa (pa + frameBytes)
  let s := i.bytes.foldl (fun s e => s.wrByte (pa + e.1) e.2) s
  { s with poison := s.poison ++ i.poison.map (· + pa / 32) }
/-- An image goes to a slot of the lower tier. -/
def State.newSlot (s : State) (i : Image) : Nat × State :=
  (s.nextSlot, { s with slots := s.slots.put s.nextSlot i, nextSlot := s.nextSlot + 1 })
def Image.blank : Image := { bytes := [], poison := [] }

/-! ## Generations (R181 to R190) -/

def State.updGen (s : State) (p serial : Nat) (f : Gen → Gen) : State :=
  let x := s.part p
  s.setPart p { x with gens := x.gens.upd serial f }
/-- Live generations: states 1, 2, 3, 5 and 6 (R181). -/
def Part.liveGens (p : Part) : Nat := (p.gens.filter (fun e => e.2.state != 4 && e.2.state != 0)).length
/-- The lowest number that no live generation holds (R183). -/
def Part.freeNum (p : Part) : Nat :=
  ((upTo 16).find? (fun n => p.gens.all (fun e => e.2.state == 4 || e.2.num != n))).getD 0
/-- A generation whose content a write must not change: in state 2, 3, 5 or 6 (R185). -/
def Gen.closed (g : Gen) : Bool := g.state == 2 || g.state == 3 || g.state == 5 || g.state == 6

/-- DRAM pages of a space, mapped or kept elsewhere, as 64 KiB page numbers (R184). -/
def State.dramPages (s : State) (space : Nat) : List Nat :=
  (s.pages.filter (fun e => e.1 / 2 ^ 40 == space && e.2.kind == 0 && (e.2.valid || e.2.state != 0))).flatMap (fun e =>
    (upTo (if e.2.valid then sizePages e.2.size else 1)).map (fun i => e.1 % 2 ^ 40 + i))
/-- The DRAM frame under a page of a space. -/
def State.pageFrame (s : State) (space page : Nat) : Option Nat :=
  match s.walk space page with
  | some (b, e) => if e.valid && e.kind == 0 then some (e.addr / frameBytes + (page - b)) else none
  | none => none
/-- The pages whose content a generation still has in a frame (R184, R185): its pages mapped on the frame, and those that were
unmapped from it. -/
def State.genShares (s : State) (p f : Nat) (g : Gen) : List Nat :=
  if g.closed then
    g.shared.filter (fun q => (g.drained.find q).isNone && s.pageFrame p q == some f) ++ (g.held.filter (fun e => e.2 == f)).map (·.1)
  else []
/-- Whether a write to a DRAM frame of a space waits for copy-aside (R185). -/
def State.frameShared (s : State) (p f : Nat) : Bool := (s.part p).gens.any (fun e => s.genShares p f e.2 != [])
/-- Whether a write of a space at a physical address waits for copy-aside (R185). -/
def State.needsAside (s : State) (space pa : Nat) : Bool :=
  match frameOf pa with | some f => f < dramFrames && s.frameShared space f | none => false
/-- The generations that share a frame have its content in an aside frame, or, when there is none, in a slot of the lower tier. -/
def State.toAside (s : State) (p f : Nat) (copy : Nat ⊕ Nat) : State :=
  s.updPart p (fun x => { x with gens := Tab.mapVals x.gens (fun g =>
    (s.genShares p f g).foldl (fun g q =>
      let g := { g with shared := g.shared.filter (· != q), held := g.held.erase q }
      match copy with
      | .inl a => { g with asides := g.asides.put q a }
      | .inr slot => { g with drained := g.drained.put q slot }) g) })
/-- The content of a frame is copied aside into a frame of the space, when one is free (R185); the copy carries what the frame held. -/
def State.copyAside (s : State) (p f : Nat) : Option State :=
  match s.freeRun 1 0 with
  | some a =>
    if s.mayTake p 1 false then
      let img := s.imageOf (frameAddr f)
      some (((s.takeFrame p a false).putImage (frameAddr a) img).toAside p f (.inl a))
    else none
  | none => none
/-- The granules under some addresses of a space are copied aside where a write to them waits for it (R185), or `none` while no frame is
to be had for one of them (R190). -/
def State.asideFor (s : State) (space : Nat) (vas : List Nat) : Option State :=
  vas.foldl (fun r va => r.bind (fun s =>
    match s.pageFrame space (va % vaMod / frameBytes) with
    | some f => if f < dramFrames && s.frameShared space f then s.copyAside space f else some s
    | none => some s)) (some s)
/-- A write of the device itself to a frame (R185): the content is copied aside before it, into a frame of the space or, with none
to be had, sealed to the lower tier at once as an aside copy that has been evicted (log 58). -/
def State.asideNow (s : State) (p f : Nat) : State :=
  if !s.frameShared p f then s
  else match s.copyAside p f with
    | some s' => s'
    | none =>
      let r := s.newSlot (s.imageOf (frameAddr f))
      r.2.toAside p f (.inr r.1)
/-- What the generations that `which` picks share of a page whose content goes stays with them: its frame, its copy in the lower tier, or
zeros. -/
def State.holdFor (s : State) (which : Gen → Bool) (space page : Nat) : State :=
  match s.walk space page with
  | none => s
  | some (b, e) =>
    let mine := fun (g : Gen) => g.closed && which g && g.shared.contains page
    if !(s.part space).gens.any (fun g => mine g.2) then s
    else
      let r := if e.valid || e.state == 2 then (e.addr, s) else s.newSlot Image.blank
      r.2.updPart space (fun p => { p with gens := Tab.mapVals p.gens (fun g =>
        if !mine g then g
        else
          let g := { g with shared := g.shared.filter (· != page) }
          if (g.drained.find page).isSome then g
          else if e.valid then (if e.kind = 0 then { g with held := g.held.put page (e.addr / frameBytes + (page - b)) } else g)
          else if e.state = 1 ∨ e.state = 2 then { g with drained := g.drained.put page r.1 }
          else g) })
/-- What closed generations share of a page that loses its entry stays with them (R190). A launch generation keeps the page in its range:
what is mapped there next is its content, copied aside before the first write (R185, log 78). -/
def State.holdForGens (s : State) (space page : Nat) : State := s.holdFor (fun g => g.state != 5) space page
/-- A frame that its owner gives back and a generation still needs is the generation's until it lets it go (R190). -/
def State.keepForGens (s : State) (p f : Nat) : State :=
  s.updPart p (fun x => { x with gens := Tab.mapVals x.gens (fun g =>
    { g with held := g.held.filter (fun e => e.2 != f),
             asides := (g.held.filter (fun e => e.2 == f)).foldl (fun t e => t.put e.1 f) g.asides }) })
/-- Whether a generation holds a frame, as an aside copy or as the frame of a page that was unmapped. -/
def State.genNeeds (s : State) (p f : Nat) : Bool := (s.part p).gens.any (fun e => (e.2.asides ++ e.2.held).any (fun x => x.2 == f))
/-- A page resolves LOST whatever held its content (R96): generations that share it keep theirs, and a frame that nothing maps any longer
is free. -/
def State.losePage (s : State) (space page : Nat) : State :=
  let s := s.splitLeaf space page
  match s.walk space page with
  | none => s
  | some (b, e) =>
    let s := (s.holdForGens space page).setPage space b { e with valid := false, state := 4, fix := false }
    if e.valid ∧ e.kind = 0 then
      let f := e.addr / frameBytes
      let o := s.frame f
      if o.maps ≤ 1 ∧ !s.genNeeds space f then s.giveFrame f else s.setFrame f { o with maps := o.maps - 1 }
    else s
/-- Whether a frame is an aside copy. -/
def State.asideFrame (s : State) (p f : Nat) : Bool := (s.part p).gens.any (fun e => e.2.asides.any (fun x => x.2 == f))

end Sys2Proof.Machine
end

