-- ==== Sys2Proof/Machine/Queue.lean ====
section
/-! DEFINITION. Queues as the device keeps them: control word, ring, append and removal (R100 to R102), and the fault queue
with its merge table (R94, R95). -/
namespace Sys2Proof.Machine

/-- Pieces of at most 32 bytes. -/
def flits : Nat → List Byte → List (List Byte)
  | 0, _ => []
  | _, [] => []
  | n + 1, l => l.take 32 :: flits n (l.drop 32)

/-- A write of the device itself at a physical address of a space: a granule that a closed generation shares is copied aside before
it (R185), and nothing is written to a die that is lost (R38). -/
def State.devStore (s : State) (space pa : Nat) (bs : List Byte) : State :=
  if s.lostDie pa then s
  else match frameOf pa with
    | some f => (if f < dramFrames then s.asideNow space f else s).store pa bs
    | none => s.store pa bs
/-- Writes of the device into a space, in pieces of 32 bytes; a piece whose page is not there writes nothing. -/
def State.storeVa (s : State) (space va : Nat) (bs : List Byte) : State :=
  ((flits (bs.length / 32 + 1) bs).foldl (fun (r : State × Nat) f =>
    (match r.1.xlate space none r.2 with
      | .leaf pa _ => r.1.devStore space pa f
      | _ => r.1, r.2 + f.length)) (s, va)).1

/-- Reads of the device in a space, byte by byte; a page that is not there reads zero. -/
def State.loadVa (s : State) (space va n : Nat) : List Byte :=
  (upTo n).map (fun i =>
    match s.xlate space none (va + i) with
    | .leaf pa _ => (s.load pa 1).headD 0
    | _ => 0)

/-- Whether a range of a space, whose sectors each lie in one page, holds a poisoned sector (R296). -/
def State.vaPoisoned (s : State) (space va n : Nat) : Bool :=
  (upTo ((n + 31) / 32)).any (fun i => match s.xlate space none (va + 32 * i) with
    | .leaf pa _ => s.poisoned pa (min 32 (n - 32 * i))
    | _ => false)

def qKey (space handle : Nat) : Nat := space * 65536 + handle
def State.queue (s : State) (space handle : Nat) : Option Queue := s.queues.find (qKey space handle)
def State.setQueue (s : State) (space handle : Nat) (q : Queue) : State :=
  { s with queues := s.queues.put (qKey space handle) q }

/-- Entries held, and depth (R100). -/
def Queue.count (q : Queue) : Nat := (q.tail + 2 ^ 32 - q.head) % 2 ^ 32
def Queue.depth (q : Queue) : Nat := 2 ^ q.logDepth
def Queue.full (q : Queue) : Bool := q.depth ≤ q.count
def Queue.entryVa (q : Queue) (i : Nat) : Nat := q.base + i % q.depth * (q.esize * 32)

/-- What a queue occupies, as addresses and lengths: its control word, its ring, and an NVMe queue's completion queue (R100, R112). -/
def Queue.spans (q : Queue) : List (Nat × Nat) :=
  [(q.cw, 32), (q.base, q.depth * (q.esize * 32))] ++ (if q.kind = 6 then [(q.cq, 16 * 2 ^ q.cqLog)] else [])
/-- The 32 bytes of a control word (R100). -/
def Queue.bytes (q : Queue) (handle : Nat) : List Byte :=
  toLE 8 q.base ++ toLE 4 q.head ++ toLE 4 q.tail ++ toLE 8 (q.window * frameBytes) ++
  toLE 1 q.logDepth ++ toLE 1 q.esize ++ toLE 1 q.kind ++
  toLE 1 ((if q.scratch then 1 else 0) + (if q.netrx then 2 else 0) + (if q.ovf then 4 else 0) + (if q.drop then 8 else 0)) ++
  toLE 2 handle ++ toLE 2 0

/-- Keeps a queue and writes its control word (R102). -/
def State.writeQueue (s : State) (space handle : Nat) (q : Queue) : State :=
  (s.setQueue space handle q).storeVa space q.cw (q.bytes handle)

/-- HEAD of a kind-6 queue is the owner's: it is read afresh from the control word (R102). -/
def State.freshQueue (s : State) (space handle : Nat) : Option Queue :=
  match s.queue space handle with
  | some q => some (if q.kind = 6 then { q with head := leNat (s.loadVa space (q.cw + 8) 4) } else q)
  | none => none

/-- Whether the control word and the ring of a queue can be used (R289): every page of them is there, and not lost with a die. -/
def State.queueSound (s : State) (space : Nat) (q : Queue) : Bool :=
  let at' := fun (va : Nat) => match s.xlate space none va with
    | .leaf pa e => e.kind ≤ 1 && !s.lostDie pa
    | _ => false
  let n := q.depth * q.esize * 32
  at' q.cw && (upTo (n / frameBytes + 2)).all (fun i => at' (min (q.base + i * frameBytes) (q.base + n - 1)))

/-- An entry is written at TAIL, zero-filled to ESIZE flits and cut with OVF when it is longer, and TAIL goes on (R105). -/
def State.appendNow (s : State) (space handle : Nat) (q : Queue) (bs : List Byte) : State :=
  let n := q.esize * 32
  let q := if bs.length ≤ n then q else { q with ovf := true }
  let e := (bs ++ List.replicate (n - bs.length) 0).take n
  (s.storeVa space (q.entryVa q.tail) e).writeQueue space handle { q with tail := (q.tail + 1) % 2 ^ 32 }
/-- Appends an entry (R105); `none` when there is no room, when the queue cannot be used, or while the write must wait for a copy that no
frame can be had for (R185, R190). -/
def State.append (s : State) (space handle : Nat) (bs : List Byte) : Option State :=
  match s.freshQueue space handle with
  | none => none
  | some q =>
    if q.full || !s.queueSound space q then none
    else
      let a := q.entryVa q.tail
      (s.asideFor space [q.cw, a, a + 32 * q.esize - 1]).map (fun s => s.appendNow space handle q bs)
/-- Whether the control word of a queue can be written now (R185, R190). -/
def State.mayPop (s : State) (space : Nat) (q : Queue) : Bool := (s.asideFor space [q.cw]).isSome

/-- The oldest entry of a queue. -/
def State.headEntry (s : State) (space : Nat) (q : Queue) : List Byte := s.loadVa space (q.entryVa q.head) (q.esize * 32)

/-- The bound queue of a kind that a space holds at most one of (R78). -/
def State.kindQueue (s : State) (space kind : Nat) : Option (Nat × Queue) :=
  match s.queues.find? (fun e => e.1 / 65536 == space && e.2.kind == kind) with
  | some e => some (e.1 % 65536, e.2)
  | none => none

/-- A fault entry (R94). -/
def PageWait.bytes (w : PageWait) (space page : Nat) : List Byte :=
  toLE 8 page ++ toLE 1 w.source ++ toLE 1 w.access ++ toLE 2 w.merge ++ toLE 1 space ++ toLE 1 w.die ++ toLE 2 w.core ++
  toLE 8 w.seq ++ toLE 4 w.held ++ toLE 4 0

/-- A page is pending while an entry for it is (R95). -/
def State.pagePending (s : State) (space page : Nat) : Bool :=
  (s.pageWaits.find (pageKey space page)).isSome || s.pageMore.any (fun e => e.1 == pageKey space page)
/-- The first entry of a space that is not yet in its fault queue: from the merge table, or beyond it. -/
def State.unposted (s : State) (space : Nat) : Option ((Nat × PageWait) ⊕ (Nat × PageWait)) :=
  let mine := fun (e : Nat × PageWait) => e.1 / 2 ^ 40 == space && e.2.posted == none
  match s.pageWaits.find? mine with
  | some e => some (.inl e)
  | none => (s.pageMore.find? mine).map .inr
/-- One entry goes into the fault queue, if it has room. -/
def State.postFault (s : State) (space : Nat) : State :=
  match s.kindQueue space 3, s.unposted space with
  | some (h, q), some x =>
    let e := match x with | .inl e => e | .inr e => e
    match s.append space h (e.2.bytes space (e.1 % 2 ^ 40)) with
    | none => s
    | some s' =>
      let at' := match s.queue space h with | some q' => q'.tail | none => q.tail
      let w := { e.2 with posted := some at' }
      match x with
      | .inl _ => { s' with pageWaits := s'.pageWaits.put e.1 w }
      | .inr _ =>
        -- the first of equal entries
        let i := s'.pageMore.findIdx (fun y => y == e)
        { s' with pageMore := s'.pageMore.set i (e.1, w) }
  | _, _ => s
/-- Enters pending entries that are not yet in the fault queue, while it has room (R95). -/
def State.postFaults (s : State) (space : Nat) : State :=
  (upTo (s.pageWaits.length + s.pageMore.length)).foldl (fun s _ => s.postFault space) s

/-- Pages that the merge table of a space holds (R95). -/
def mergePages : Nat := 1024
/-- How many entries requests for pages make, one after another (R95): a page in the merge table merges, and a new one is in the table
from then on while that has room. -/
def State.newEntries (s : State) (space : Nat) (pages : List Nat) : Nat :=
  let mine := (s.pageWaits.filter (fun e => e.1 / 2 ^ 40 == space)).map (·.1)
  (pages.foldl (fun (x : Nat × List Nat) p =>
    let k := pageKey space p
    if x.2.contains k then x else (x.1 + 1, if x.2.length < mergePages then k :: x.2 else x.2)) (0, mine)).1
/-- A request for a page (R94, R95): it merges into the pending entry of the page or enters a new one; once the merge table is full,
a request for another page enters an entry of its own each time. For a page that awaits a post-copy pull the source is 4 (R94, R97), but a PAGEREQ and a Flue's window keep 0 (R180, R393). -/
def State.requestPage (s : State) (space page source access die core seq held : Nat) : State :=
  let k := pageKey space page
  let source := match s.walk space page with | some (_, e) => if !e.valid && e.state == 3 && source != 0 then 4 else source | none => source
  match s.pageWaits.find k with
  | some w =>
    let w' := { w with merge := min 65535 (w.merge + 1), access := w.access ||| access, held := w.held + held }
    let s := { s with pageWaits := s.pageWaits.put k w' }
    match w'.posted, s.kindQueue space 3 with
    | some i, some (_, q) =>
      if (i + 2 ^ 32 - q.head) % 2 ^ 32 < q.count then s.storeVa space (q.entryVa i) (w'.bytes space page) else s
    | _, _ => s
  | none =>
    let w : PageWait :=
      { source := source, access := access, merge := 0, die := die, core := core, seq := seq, held := held, posted := none }
    let full := mergePages ≤ (s.pageWaits.filter (fun e => e.1 / 2 ^ 40 == space)).length
    (if full then { s with pageMore := s.pageMore ++ [(k, w)] } else { s with pageWaits := s.pageWaits.put k w }).postFaults space
/-- Pages of a range resolve: nothing waits for them any longer (R96). -/
def State.endWaits (s : State) (space b n : Nat) : State :=
  let inside := fun (k : Nat) => pageKey space b ≤ k && k < pageKey space (b + n)
  { s with pageWaits := Tab.keep s.pageWaits (fun k _ => !inside k), pageMore := s.pageMore.filter (fun e => !inside e.1) }
def State.endPageWait (s : State) (space page : Nat) : State := s.endWaits space page 1

/-- Removes the oldest entry (R102); a fault queue then takes entries that waited (R95). -/
def State.pop (s : State) (space handle : Nat) : State :=
  match s.queue space handle with
  | none => s
  | some q =>
    if q.count = 0 then s
    else
      let s := s.writeQueue space handle { q with head := (q.head + 1) % 2 ^ 32 }
      if q.kind = 3 then s.postFaults space else s

end Sys2Proof.Machine
end

