-- ==== Sys2Proof/Machine/Ops.lean ====
section
/-! DEFINITION. The named operations on registers, threads, groups and tokens; fetching a line; ending and killing a group;
TAKING A TRAP as one operation and returning from one (R284 to R290); and how an instruction acts in the lanes of its issue
group (R29, R142, R163, R281, R282). -/
namespace Sys2Proof.Machine

/-! ## Names -/

def gidOf (tid : Nat) : Nat := tid / 64
def level0 (tid : Nat) : Nat := tid % 64
def coreOf (gid : Nat) : Nat := gid / 512
def dieOf (core : Nat) : Nat := core / 64

def State.thread (s : State) (tid : Nat) : Thread := s.threads.getD tid { pc := 0, st := .exited }
def State.group (s : State) (gid : Nat) : Group :=
  s.groups.getD gid { space := 0, launch := 0, inst := 0, levels := [], gidx := 0, width := 0, laneBase := 0 }
def State.updThread (s : State) (tid : Nat) (f : Thread → Thread) : State := { s with threads := s.threads.upd tid f }
def State.updGroup (s : State) (gid : Nat) (f : Group → Group) : State := { s with groups := s.groups.upd gid f }

/-- A launch record that declares nothing. -/
def LRec.blank : LRec :=
  { entry := 0, handler := 0, nlev := 3, gwidth := 8, domains := [], exts := [], wlist := 0, wcount := 0, task := 0,
    tcount := 0, scratch := 0, opbuf := 0, compq := 0xFFFF, vgran := 0, ggran := 0, tregs := 0, accs := 0, pclass := false,
    pinclass := false, replay := false, prio := 0, auth := 1, authPart := 0, wins := [] }
def State.launch (s : State) (id : Nat) : Launch :=
  s.launches.getD id { space := 0, seq := 0, handle := 0, die := 0, record := LRec.blank, phase := .ended }
def State.updLaunch (s : State) (id : Nat) (f : Launch → Launch) : State := { s with launches := s.launches.upd id f }
/-- The launch of a thread. -/
def State.launchOf (s : State) (tid : Nat) : Launch := s.launch (s.group (gidOf tid)).launch
def State.spaceOf (s : State) (tid : Nat) : Nat := (s.group (gidOf tid)).space

/-- The threads of a group that have not exited, in ascending LEVEL0. -/
def State.live (s : State) (gid : Nat) : List Nat :=
  (s.threads.filter (fun e => gidOf e.1 == gid && e.2.st != .exited)).map (·.1)
/-- The groups of a launch. -/
def State.groupsOf (s : State) (launch : Nat) : List Nat := (s.groups.filter (fun e => e.2.launch == launch)).map (·.1)

/-- The workgroup level: the highest level bound to core (R117). -/
def LRec.wgLevel (r : LRec) : Nat := 1 + (r.domains.filter (· == 0)).length
/-- The highest co-resident level of a launch (R119). -/
def LRec.topResident (r : LRec) : Nat := 1 + (r.domains.filter (· ≤ 2)).length
def prod (l : List Nat) : Nat := l.foldl (· * ·) 1
/-- Groups in a workgroup (R117). -/
def LRec.wgGroups (r : LRec) : Nat := prod (r.exts.take (r.wgLevel - 1))
/-- Groups in a co-resident instance, and co-resident instances of the launch (R117, R119). -/
def LRec.instGroupCount (r : LRec) : Nat := prod (r.exts.take (r.topResident - 1))
def LRec.instances (r : LRec) : Nat := prod (r.exts.drop (r.topResident - 1))
/-- Bytes of a workgroup's allocation (R176). -/
def LRec.allocBytes (r : LRec) : Nat := r.scratch + 4096 * r.wgGroups
def LRec.nv (r : LRec) : Nat := 8 * r.vgran
def LRec.ng (r : LRec) : Nat := 4 * r.ggran

/-! ## Registers (R155 to R158) -/

def State.getV (s : State) (tid n : Nat) : W32 := s.vreg.getD (tid * 256 + n) 0
def State.setV (s : State) (tid n : Nat) (x : W32) : State := { s with vreg := s.vreg.putZ 0 (tid * 256 + n) x }
def State.getU (s : State) (gid n : Nat) : W64 := s.ureg.getD (gid * 64 + n) 0
def State.setU (s : State) (gid n : Nat) (x : W64) : State := { s with ureg := s.ureg.putZ 0 (gid * 64 + n) x }
/-- p0 reads 0xFF and discards writes (R156). -/
def State.getP (s : State) (tid n : Nat) : Byte := if n = 0 then 0xFF else s.preg.getD (tid * 16 + n) 0
def State.setP (s : State) (tid n : Nat) (x : Byte) : State :=
  if n = 0 then s else { s with preg := s.preg.putZ 0 (tid * 16 + n) x }
def State.getT (s : State) (gid n : Nat) : BitVec 256 := s.treg.getD (gid * 16 + n) 0
def State.setT (s : State) (gid n : Nat) (x : BitVec 256) : State := { s with treg := s.treg.putZ 0 (gid * 16 + n) x }
def State.getPin (s : State) (gid n : Nat) : W64 := s.pinreg.getD (gid * 8 + n) 0
def State.setPin (s : State) (gid n : Nat) (x : W64) : State := { s with pinreg := s.pinreg.putZ 0 (gid * 8 + n) x }
def State.getAcc (s : State) (gid n : Nat) : Acc := s.accs.getD (gid * 8 + n) {}
def State.setAcc (s : State) (gid n : Nat) (x : Acc) : State := { s with accs := Tab.putZ {} s.accs (gid * 8 + n) x }

/-- Word `n` of parameter window `k`; a word beyond the bound reads zero (R18). -/
def State.param (s : State) (tid k n : Nat) : W32 := (s.launchOf tid).params.getD (32 * k + n) 0
def LRec.win (r : LRec) (k : Nat) : Option (Nat × Addr) := (r.wins.getD k none)

/-! ## Sources and destinations -/

/-- A source of 32 bits (R18, R157). -/
def State.src32 (s : State) (tid : Nat) : Operand → W32
  | .v n => s.getV tid n.toNat
  | .g n => (s.getU (gidOf tid) n.toNat).truncate 32
  | .p n => (s.getP tid n.toNat).zeroExtend 32
  | .w k n => s.param tid k.toNat n.toNat
  | _ => 0
/-- A source of 64 bits, low word first (R18, R157). -/
def State.src64 (s : State) (tid : Nat) : Operand → W64
  | .v n => (s.getV tid (n.toNat + 1)) ++ (s.getV tid n.toNat)
  | .g n => s.getU (gidOf tid) n.toNat
  | .w k n => (s.param tid k.toNat (n.toNat + 1)) ++ (s.param tid k.toNat n.toNat)
  | _ => 0
/-- A 32-bit result, zero-extended into a uniform register (R157); a predicate takes the low byte. -/
def State.wr32 (s : State) (tid : Nat) (o : Operand) (x : W32) : State :=
  match o with
  | .v n => s.setV tid n.toNat x
  | .g n => s.setU (gidOf tid) n.toNat (x.zeroExtend 64)
  | .p n => s.setP tid n.toNat (x.truncate 8)
  | _ => s
/-- A 64-bit result: a uniform register or a vector pair (R157). -/
def State.wr64 (s : State) (tid : Nat) (o : Operand) (x : W64) : State :=
  match o with
  | .v n => (s.setV tid n.toNat (x.truncate 32)).setV tid (n.toNat + 1) ((x >>> 32).truncate 32)
  | .g n => s.setU (gidOf tid) n.toNat x
  | _ => s
/-- A test's result: bit 0, with bits [7:1] clear (R159). -/
def State.wrTest (s : State) (tid : Nat) (o : Operand) (b : Bool) : State := s.wr32 tid o (if b then 1 else 0)

/-- Registers that an operand of `words` 32-bit words names (R157); a uniform register holds two words. -/
def regsOf (tid : Nat) (o : Operand) (words : Nat) : List RegName :=
  match o with
  | .v n => (upTo words).map (fun i => .v tid (n.toNat + i))
  | .g n => (upTo ((words + 1) / 2)).map (fun i => .u (gidOf tid) (n.toNat + i))
  | .p n => if n = 0 then [] else [.p tid n.toNat]
  | _ => []

/-- A register of a group, which outlives a thread that has exited. -/
def RegName.uniform : RegName → Bool
  | .u _ _ => true
  | _ => false
/-- The registers a pending fill marks empty: its destination and its flag predicate (R162). An ACQR marks none (R397), and of an
exited thread only what is its group's stays empty (R165). -/
def Fill.empties (f : Fill) : List RegName :=
  if f.acqr then []
  else
    let rs := f.dst ++ (match f.flag with | some n => if n = 0 then [] else (f.tid :: f.also).map (fun t => .p t n) | none => [])
    if f.gone then rs.filter (fun r => r.uniform || (match r with | .p t _ => t != f.tid | _ => false)) else rs
/-- The registers that a fill of an ACQR writes when its value comes (R397). -/
def Fill.targets (f : Fill) : List RegName :=
  f.dst ++ (match f.flag with | some n => if n = 0 then [] else [.p f.tid n] | none => [])
/-- A register is empty exactly while a pending fill names it (R162). -/
def State.isEmpty (s : State) (r : RegName) : Bool := s.fills.any (fun e => e.2.empties.contains r)

/-- Whether an operand names only declared registers (R155, R156). -/
def LRec.declares (r : LRec) (o : Operand) (words : Nat) : Bool :=
  match o with
  | .v n => n.toNat + words ≤ r.nv
  | .g n => n.toNat + (words + 1) / 2 ≤ r.ng
  | .p n => n == 0 || r.pclass
  | .t n => n.toNat < r.tregs
  | .a n => n.toNat < r.accs
  | .pin _ => r.pinclass
  | .w _ _ => true

/-! ## Causes and counters -/

/-- Cause codes (R281). -/
def Cause.code : Cause → Nat
  | .illegalOp => 0x01 | .illegalField => 0x02 | .badTarget => 0x03 | .emptyRead => 0x04 | .align => 0x05 | .permLoad => 0x06
  | .storeFault => 0x07 | .copyFault => 0x08 | .paramUnbound => 0x09 | .atomicUnreachable => 0x0A | .rights => 0x0B
  | .tileReserve => 0x0C | .bkpt => 0x0D | .soft => 0x0E | .pageLost => 0x0F | .doubleFault => 0x10 | .nopreExpired => 0x11

/-- The place of a precise cause in the order of R282. -/
def Cause.rank : Cause → Nat
  | .illegalOp => 0 | .rights => 1 | .illegalField => 2 | .paramUnbound => 3 | .emptyRead => 4 | .tileReserve => 5 | .align => 6
  | .atomicUnreachable => 7 | .permLoad => 8 | .pageLost => 9 | .badTarget => 10 | .bkpt => 11 | .soft => 12
  | .storeFault => 13 | .copyFault => 14 | .nopreExpired => 15 | .doubleFault => 16

/-- Notice classes (R61). -/
def Cause.noticeClass : Cause → Nat
  | .illegalOp | .illegalField | .badTarget | .emptyRead | .align | .rights | .bkpt | .soft => 0
  | .permLoad | .storeFault | .copyFault | .atomicUnreachable | .pageLost => 1
  | .paramUnbound | .tileReserve => 2
  | .doubleFault | .nopreExpired => 3

/-- Adds energy to one field of an account in millionths of a µJ; the fraction is carried (R311). -/
def Energy.add (e : Energy) (field amount : Nat) : Energy :=
  let x := e.carry.getD field 0 + amount
  { fields := (upTo 8).map (fun i => e.fields.getD i 0 + (if i = field then BitVec.ofNat 64 (x / 1000000) else 0)),
    carry := e.carry.putZ 0 field (x % 1000000) }
/-- The account of a space that has one, and otherwise the device account (R311). -/
def State.updAccount (s : State) (subject : Nat) (f : Energy → Energy) : State :=
  if subject ≤ 64 && (s.part subject).live then s.setPart subject { s.part subject with energy := f (s.part subject).energy }
  else { s with pkg.energy := f s.pkg.energy }
/-- The key of some work of the interval (R311): the row of the rule's table, the island, the space, and whose it is: 0 of no launch, 1 of
an attempt that has been discarded, 2 + id of the attempt under way of a launch. -/
def workKey (row island space tag : Nat) : Nat := ((row * 64 + island) * 128 + space) * 2 ^ 40 + tag
def State.addWork (s : State) (row island space tag n : Nat) : State :=
  let k := workKey row island space tag
  { s with work := s.work.putZ 0 k (s.work.getD k 0 + n) }
/-- An attempt of a launch is discarded (R312): the energy attributed to it counts in the replay field in addition, and its work of this
interval is marked. -/
def State.discardEnergy (s : State) (id : Nat) : State :=
  let l := s.launch id
  let mine := s.work.filter (fun e => e.1 % 2 ^ 40 == id + 2)
  let s := s.updAccount l.space (fun e => e.add 7 l.energy)
  mine.foldl (fun s e => { s with work := s.work.erase e.1 }.addWork (e.1 / 2 ^ 53) (e.1 / 2 ^ 47 % 64) (e.1 / 2 ^ 40 % 128) 1 e.2) s

/-- The number of a counter (R301). -/
def ctrNo (bank subject index : Nat) : Nat := bank * 2 ^ 28 + subject * 2 ^ 20 + index
def State.bump (s : State) (bank subject index n : Nat) : State :=
  let k := ctrNo bank subject index
  { s with ctrs := s.ctrs.putZ 0 k (s.ctrs.getD k 0 + BitVec.ofNat 64 n) }

def State.ref (s : State) (die : Nat) : W64 := s.refCount.getD die 0

/-- Enters an operator notice, merging with a pending one of the same launch and class, or of the same event and partition
(R61, R62, R435). -/
def State.notice (s : State) (n : Notice) : State :=
  let same := fun (m : Notice) =>
    if n.event = 0 then m.event == 0 && m.part == n.part && m.handle == n.handle && m.seq == n.seq && m.cls == n.cls
    else m.event == n.event && m.part == n.part
  let s := if n.part ≤ 64 then s.bump 4 n.part n.cls 1 else s
  if s.pkg.notices.any same then
    { s with pkg.notices := s.pkg.notices.map (fun m => if same m then { m with count := min 65535 (m.count + 1) } else m) }
  else if s.pkg.notices.length < 4096 then { s with pkg.notices := s.pkg.notices ++ [n] }
  else { s with pkg.noticesDropped := s.pkg.noticesDropped + 1 }

/-- A notice that a launch raises on a die (R61). -/
def State.launchNotice (s : State) (l : Launch) (die cls : Nat) : State :=
  s.notice { cls := cls, part := l.space, die := die, count := 1, handle := l.handle, seq := l.seq, ref := s.ref die,
             event := 0, detail := 0 }
/-- A notice that no launch raises (R62). -/
def State.eventNotice (s : State) (event cls part detail : Nat) : State :=
  s.notice { cls := cls, part := part, die := 0xFF, count := 1, handle := 0xFFFF, seq := 0, ref := s.ref 0,
             event := event, detail := detail }

/-! ## Code addresses and fetch (R315 to R317) -/

/-- A value whose low six bits are 5 or more is no code address (R315). -/
def isCode (a : Addr) : Bool := a.toNat % 64 < 5
def lineOf (a : Addr) : Nat := a.toNat - a.toNat % 64
def slotOf (a : Addr) : Nat := a.toNat % 64
/-- The next address of an instruction (R281). -/
def nextAddr (a : Addr) : Addr := if slotOf a < 4 then a + 1 else BitVec.ofNat 56 (lineOf a + 64)

/-- What fetching a line finds. -/
inductive Fetch where
  | line (bytes : List Byte)
  | trap (t : TrapInfo)
  /-- A page at STATE 1, 2 or 3: a residency fault (R87). -/
  | wait
  /-- An uncorrectable error (R86, R296). -/
  | bad
  deriving DecidableEq, Repr

/-- A fetch fault on an address, at an instruction (R281, R283). -/
def fetchFault (c : Cause) (code va : Nat) : Fetch :=
  .trap { cause := c, i1 := BitVec.ofNat 64 code, i2 := 1, i3 := BitVec.ofNat 64 va }

/-- Fetch of the line of code address `va` for an instruction at `code` (R86, R87, R281, R316). -/
def State.fetch (s : State) (core space code va : Nat) : Fetch :=
  match s.xlate space (some core) (va - va % 64) with
  | .leaf pa e =>
    if e.owner ≠ space ∨ !(e.xe && e.rd) ∨ e.kind ≥ 3 then fetchFault .permLoad code va
    else if s.poisoned pa 64 then .bad
    else
      let b := s.load pa 64
      if fieldLE b 60 4 / 2 ^ 15 % 2 = 1 then fetchFault .permLoad code va else .line b
  | .absent e => if e.state = 4 then fetchFault .pageLost code va else .wait
  | .none => fetchFault .permLoad code va
  | .breach => .bad

/-- The place of a code address in host memory, whose lines come by a port (R43). -/
def State.hostLine (s : State) (core space va : Nat) : Option Nat :=
  match s.xlate space (some core) (va - va % 64) with
  | .leaf pa e => if inRegion 2 pa && e.owner == space && e.xe && e.rd then some pa else none
  | _ => none

/-- The line word, and the target bit of a slot (R316). -/
def lineWord (b : List Byte) : Nat := fieldLE b 60 4
def tgtBit (b : List Byte) (slot : Nat) : Bool := lineWord b / 2 ^ slot % 2 == 1
/-- The 96 bits of a slot (R315). -/
def slotWord (b : List Byte) (slot : Nat) : Nat := fieldLE b (12 * slot) 12

/-- What entering a code address finds (R317): nothing wrong, a cause, an absent page, or an uncorrectable error. -/
def State.enter (s : State) (core space code : Nat) (target : Nat) : Option Fetch :=
  let refuse : Fetch := .trap { cause := .badTarget, i3 := BitVec.ofNat 64 target }
  if target % 64 ≥ 5 ∨ target ≥ vaMod then some refuse
  else match s.fetch core space code target with
    | .line b => if tgtBit b (target % 64) then none else some refuse
    | f => some f

/-! ## Tokens (R22) -/

def Group.token (g : Group) (k : Nat) : Token := g.tokens.getD k {}
/-- Whether some token of a mask is pending. -/
def Group.pending (g : Group) (mask : BitVec 8) : Bool := (upTo 8).any (fun k => mask.getLsbD k && (g.token k).ops != 0)
/-- Arms a token for one more operation of a thread. -/
def State.arm (s : State) (tid k : Nat) : State :=
  s.updGroup (gidOf tid) (fun g =>
    let t := g.token k
    let old : W64 := if t.ops = 0 then 0 else t.armers
    { g with tokens := g.tokens.put k { ops := t.ops + 1, armers := old ||| (1 <<< level0 tid) } })
/-- One operation armed on a token has completed. -/
def State.disarm (s : State) (gid : Nat) (k : Option Nat) : State :=
  match k with
  | none => s
  | some k => s.updGroup gid (fun g =>
      let t := g.token k
      { g with tokens := g.tokens.put k { t with ops := t.ops - 1 } })

/-! ## Pins (R215, R220) -/

def pinV (x : W64) : Bool := x.getLsbD 63
def pinName (x : W64) : Nat := x.toNat % 2 ^ 48
/-- A drop of a pin of a name sets REDO of the name's list entry (R220). -/
def State.pinDropped (s : State) (space name : Nat) : State :=
  let p := s.part space
  match p.reclaims.find name with
  | some e => s.setPart space { p with reclaims := p.reclaims.put name { e with redo := true } }
  | none => s

/-- Sets the content of a pin register or its directory entry when a group ends: its pins are dropped (R215, R227). -/
def State.dropPins (s : State) (gid space : Nat) : State :=
  let held := (s.pinreg ++ s.pinDir).filter (fun e => e.1 / 8 == gid && pinV e.2)
  let s := { s with pinreg := Tab.keep s.pinreg (fun k _ => k / 8 != gid), pinDir := Tab.keep s.pinDir (fun k _ => k / 8 != gid) }
  held.foldl (fun s e => s.pinDropped space (pinName e.2)) s

/-! ## Queue claims (R106, R108) -/

/-- HEAD passes released entries from the head onwards (R106). -/
def Queue.passReleased : Nat → Queue → Queue
  | 0, q => q
  | n + 1, q =>
    if q.released.contains q.head then
      Queue.passReleased n { q with head := (q.head + 1) % 2 ^ 32, released := q.released.filter (· != q.head) }
    else q
/-- Ends a claim: its entry is released. -/
def State.release (s : State) (space : Nat) (c : Claim) : State :=
  match s.queue space c.handle with
  | none => s
  | some q =>
    let q := { q with released := q.released ++ [c.entry] }
    s.writeQueue space c.handle (q.passReleased q.released.length)

/-! ## Scratchpad and save areas of groups -/

/-- The physical range of a group's workgroup allocation (R176). -/
def State.allocRange (s : State) (gid : Nat) : Nat × Nat :=
  let g := s.group gid
  let lo := flatPa g.scrBase.toNat
  (lo, lo + (s.launch g.launch).record.allocBytes)
/-- The groups of a group's workgroup, and whether the workgroup's scratchpad has been claimed: the mark is kept with its
group of index 0 (R147, R169). -/
def State.wgMates (s : State) (gid : Nat) : List Nat :=
  let g := s.group gid
  (s.groups.filter (fun e => coreOf e.1 == coreOf gid && e.2.launch == g.launch && e.2.inst == g.inst && e.2.scrBase == g.scrBase)).map (·.1)
def State.scrSpilt (s : State) (gid : Nat) : Bool :=
  (s.wgMates gid).any (fun m => (s.group m).gidx == 0 && (s.group m).spilt.getLsbD 7)
/-- Whether some byte of a scratchpad frame belongs to an allocation, a grant or a bound queue (R175). -/
def State.scrUsed (s : State) (f : Nat) : Bool :=
  let lo := frameAddr f
  let hi := lo + frameBytes
  s.groups.any (fun e => !s.scrSpilt e.1 && (let r := s.allocRange e.1; r.1 < hi && lo < r.2)) ||
  (s.grants.find f).isSome ||
  s.queues.any (fun e => e.2.spans.any (fun r => isFlat r.1 && flatPa r.1 < hi && lo < flatPa r.1 + r.2))
/-- Whether an access that has translated into a scratchpad frame has not landed yet (R91). -/
def State.scrBusy (s : State) (f : Nat) : Bool :=
  let lo := frameAddr f
  let hi := lo + frameBytes
  let meets := fun (a n : Nat) => decide (a < hi) && decide (lo < a + n)
  s.fills.any (fun e => match e.2.what with
    | .load n els => els.any (fun o => match o with | some pa => meets pa n | none => false)
    | .atom pa _ _ n _ _ => meets pa n
    | _ => false) ||
  s.tloads.any (fun e => e.2.left != [] && meets e.2.src (2 ^ 21)) || s.sigrds.any (fun e => meets e.2.buf 640)
/-- Frees scratchpad frames of a space that nothing uses any longer (R175), once no access is in flight to them (R91). -/
def State.freeScratch (s : State) (space : Nat) : State :=
  (s.own.filter (fun e => dramFrames ≤ e.1 && e.2.owner == space)).foldl (fun s e =>
    if s.scrUsed e.1 || s.scrBusy e.1 then s
    else (s.setFrame e.1 {}).erasePage space ((flatBase + (e.1 - dramFrames) * frameBytes) / frameBytes)) s
/-- Frees the frames of a save area (R168). -/
def State.freeSave (s : State) (g : Group) : State :=
  (upTo g.saveCount).foldl (fun s i => s.setFrame (g.saveFrame + i) {}) s

/-! ## Trace of a group (R305 to R307) -/

def rol64 (x : W64) (n : Nat) : W64 := x.rotateLeft n
/-- PATHSIG of a group (R307). -/
def State.pathsig (s : State) (gid : Nat) : W64 :=
  (s.threads.filter (fun e => gidOf e.1 == gid)).foldl (fun a e => a + rol64 e.2.sig (level0 e.1)) 0

/-- The cycle count of a core: that of its cluster's clock (R33, R306). -/
def State.cycles (s : State) (core : Nat) : W64 := s.coreCycle.getD (core / 8) 0

/-- LEVELk of a group (R120). -/
def Group.level (g : Group) (k : Nat) : Nat := g.levels.getD (k - 1) 0
/-- Linear index of a group's level-k instance in its launch, from LEVELk up (R117, R120); `n` levels are above. -/
def LRec.instIndex (r : LRec) (g : Group) : Nat → Nat → Nat
  | 0, _ => 0
  | n + 1, k => g.level k + r.exts.getD (k - 1) 1 * LRec.instIndex r g n (k + 1)
def LRec.inst (r : LRec) (g : Group) (k : Nat) : Nat := r.instIndex g (r.nlev - k) k
/-- The key of a level-k instance for its phase count (R362). -/
def State.barKey (s : State) (gid k : Nat) : Nat :=
  let g := s.group gid
  (g.launch * 8 + k) * 2 ^ 80 + (s.launch g.launch).record.inst g k

/-- Appends a trace record: head and body (R305, R306). A LOSS record precedes the first record that finds room again. -/
def State.traceRaw (s : State) (space core slot type : Nat) (body : List Byte) : State :=
  let p := s.part space
  let h := p.trctl.toNat / 2 ^ 16 % 2 ^ 16
  let entry := fun (type core slot : Nat) (body : List Byte) =>
    toLE 1 type ++ toLE 1 (dieOf core) ++ toLE 1 (core % 64) ++ toLE 1 0 ++ toLE 2 slot ++ toLE 2 0 ++
    toLE 8 (s.cycles core).toNat ++ body
  match s.queue space h with
  | none => s
  | some q =>
    if !p.trctl.getLsbD 63 || q.kind != 0 || q.esize != 2 then s
    else if q.full || !s.queueSound space q then
      (s.writeQueue space h { q with drop := true }).setPart space { p with traceDropped := p.traceDropped + 1 }
    else s.appendNow space h q (entry type core slot body)
/-- The LOSS record, when there is room for it; the next record of each selected group is then a SYNC (R305, log 17). -/
def State.traceLossPost (s : State) (space : Nat) : State :=
  let p := s.part space
  match s.queue space (p.trctl.toNat / 2 ^ 16 % 2 ^ 16) with
  | some q =>
    if p.traceDropped = 0 ∨ q.full ∨ q.kind ≠ 0 ∨ q.esize ≠ 2 then s
    else
      let s := s.traceRaw space 0 0 6 (toLE 8 p.traceDropped)
      { s.setPart space { s.part space with traceDropped := 0 } with
        groups := Tab.mapVals s.groups (fun g => if g.space = space then { g with records := 0 } else g) }
  | none => s
/-- A record, after the LOSS record that is due (R305). -/
def State.trace (s : State) (space core slot type : Nat) (body : List Byte) : State :=
  if (s.part space).trctl.getLsbD 63 then (s.traceLossPost space).traceRaw space core slot type body else s

/-- Whether a group satisfies every enabled comparison of TRCTL (R304, R305). -/
def State.traceMatch (s : State) (gid : Nat) : Bool :=
  let g := s.group gid
  let l := s.launch g.launch
  let c := (s.part g.space).trctl
  let f := fun (lo n : Nat) => c.toNat / 2 ^ lo % 2 ^ n
  (!c.getLsbD 61 || l.handle == f 0 16) && (!c.getLsbD 60 || g.level l.record.wgLevel == f 32 16) &&
  (!c.getLsbD 59 || g.gidx == f 48 9)
/-- The group of a space that a core has selected for full detail: the one that holds the selection, else the matching group
with the lowest slot, which takes it (R305). -/
def State.selected (s : State) (core space : Nat) : Option Nat :=
  if !(s.part space).trctl.getLsbD 63 then none
  else match s.traceSel.find (core * 128 + space) with
    | some g => some g
    | none => (s.groups.find? (fun e => coreOf e.1 == core && e.2.space == space && s.traceMatch e.1)).map (·.1)
def State.isSelected (s : State) (gid : Nat) : Bool := s.selected (coreOf gid) (s.group gid).space == some gid
/-- A group takes the selection of its core and space if it is due and does not hold it; its next record is a SYNC (R305, R306). -/
def State.select (s : State) (gid : Nat) : State :=
  let k := coreOf gid * 128 + (s.group gid).space
  if s.isSelected gid && (s.traceSel.find k).isNone then
    { s.updGroup gid (fun g => { g with records := 0 }) with traceSel := s.traceSel.put k gid }
  else s

/-- The body of a SYNC record (R306). -/
def State.syncBody (s : State) (gid : Nat) : List Byte :=
  let g := s.group gid
  let l := s.launch g.launch
  let pc := match s.live gid with | t :: _ => (s.thread t).pc | [] => 0
  toLE 8 pc.toNat ++ (upTo 6).flatMap (fun i => toLE 2 (g.level (i + 2))) ++
  toLE 4 (s.bars.getD (s.barKey gid l.record.wgLevel) 0) ++ toLE 8 (s.pathsig gid).toNat ++ toLE 8 l.seq
/-- A record of a group: a selected group's first record, and every 4,096th, is a SYNC (R306). -/
def State.traceGroup (s : State) (gid type : Nat) (body : List Byte) : State :=
  let g := s.group gid
  let core := coreOf gid
  let one := fun (s : State) (type : Nat) (body : List Byte) => s.trace g.space core (gid % 512) type body
  if !s.isSelected gid then s
  else
    let s := (s.select gid).traceLossPost g.space
    let s := if (s.group gid).records = 0 then (one s 1 (s.syncBody gid)).updGroup gid (fun g => { g with records := 1 }) else s
    (one s type body).updGroup gid (fun g => { g with records := if g.records ≥ 4095 then 0 else g.records + 1 })

/-- A mask of threads of a group by LEVEL0. -/
def maskOf (ts : List Nat) : Nat := ts.foldl (fun (a : Nat) t => a + 2 ^ level0 t) 0
/-- ISSUE records of an instruction that the threads of `acting` and `skipped` issued (R306). -/
def State.traceIssue (s : State) (acting skipped : List Nat) : State :=
  let gids := ((acting ++ skipped).map gidOf).eraseDups
  gids.foldl (fun s g =>
    let m := fun (l : List Nat) => maskOf (l.filter (fun t => gidOf t == g))
    s.traceGroup g 2 (toLE 8 s.cur.pc.toNat ++ toLE 8 (m acting) ++ toLE 8 (m skipped) ++ toLE 8 (s.group g).retired.toNat)) s
/-- EXIT record and workgroup signature of a group that ends (R306, R307). -/
def State.traceEnd (s : State) (gid : Nat) : State :=
  let g := s.group gid
  let l := s.launch g.launch
  let sig := s.pathsig gid
  let w := l.record.inst g l.record.wgLevel
  let body := toLE 8 sig.toNat ++ toLE 8 l.seq ++ toLE 8 g.retired.toNat
  let s := if s.isSelected gid then s.traceGroup gid 5 body else s.trace g.space (coreOf gid) (gid % 512) 5 body
  s.updLaunch g.launch (fun l => { l with sigs := l.sigs.put w (l.sigs.getD w 0 + sig) })

/-! ## Ending a group -/

/-- Names a group and a thread that never exist: what is left of one that has gone. -/
def goneGid : Nat := 2 ^ 40
/-- A queued operation once a group has gone: a member of a gang, or the group whose tile it streams, is no longer there (R259). -/
def MatOp.without (gid : Nat) : MatOp → MatOp
  | .mma b t g a e w f => .mma b t (if g = gid then goneGid else g) (if a = gid then goneGid else a) e w f
  | o => o
/-- A collective without what a group still had to land or had parked; other groups' slices go on, and an open report that a thread of
the group had taken is due to another thread (R277, R290). -/
def Coll.without (c : Coll) (gid : Nat) : Coll :=
  let keep := fun (k : Park) => match c.slices[k.slice]? with | some x => x.gid != gid | none => false
  { c with slices := c.slices.map (fun x => if x.gid = gid then { x with left := [], tok := none } else x),
           parked := c.parked.filter keep, report := c.report.filter keep,
           reportTo := if (c.reportTo.map gidOf) = some gid ∨ c.report.filter keep = [] then none else c.reportTo,
           tile := c.tile.map (fun t => (if t.1 = gid then goneGid else t.1, t.2)) }
/-- TRAPINFO0 of a copy report: handle and slot (R278). -/
def Coll.info0 (c : Coll) : W64 := BitVec.ofNat 64 (c.handle + c.slot * 2 ^ 56)
/-- A report that waited for a thread which is gone is due again, to another thread (R277, R288, R300). -/
def Coll.redirect (c : Coll) (tid : Nat) (reports : List TrapInfo) : Coll :=
  if c.reportTo = some tid ∧ reports.any (fun r => r.cause == .copyFault && r.i0 == c.info0) then { c with reportTo := none } else c

/-- A message leaves on the session of an authority, the one on the lowest window (R59, log 73). -/
def countSent (who : Who) : Tab Session → Tab Session
  | [] => []
  | (k, x) :: r => if x.who = who then (k, { x with sent := x.sent + 1 }) :: r else (k, x) :: countSent who r
/-- Answers a command of a session (R49, R59). -/
def State.answer (s : State) (who : Who) (status : Nat) (values : List W64 := []) (bytes : List Byte := []) : State :=
  { s with pkg.sessions := countSent who s.pkg.sessions, pkg.replies := s.pkg.replies ++ [{ who := who, status := status, values := values, bytes := bytes }] }

/-- Takes a group off its core: what is in flight for it is discarded, its pins are dropped, its claims released, its rows,
accumulators, planes and operand-buffer range read zero, and its workgroup's allocation goes with its last group (R58, R108,
R176, R215, R290). That a closed packet of it which still waits for room goes too is the model's choice (log 69). -/
def State.removeGroup (s : State) (gid : Nat) : State :=
  let g := s.group gid
  let r := (s.launch g.launch).record
  let mine := fun (t : Nat) => gidOf t == gid
  let gone : Tab Thread := s.threads.filter (fun e => mine e.1)
  let s := (s.threads.filter (fun e => mine e.1)).foldl (fun s e =>
    match e.2.claim with | some c => s.release g.space c | none => s) s
  let s := s.dropPins gid g.space
  let lo := coreOf gid * 2 ^ 21 + g.opBase
  let s := (s.stops.filterMap (fun x => if x.gid = gid then x.who else none)).foldl (fun s w => s.answer w 4) s
  let s := { s with stores := Tab.keep s.stores (fun _ x => !mine x.tid), fills := Tab.keep s.fills (fun _ x => !mine x.tid),
                    queues := Tab.mapVals s.queues (fun q => { q with waiting := q.waiting.filter (fun w => !mine w.1) }),
                    colls := Tab.mapVals s.colls (fun c => gone.foldl (fun c (e : Nat × Thread) => c.redirect e.1 e.2.reports) (c.without gid)),
                    sigrds := Tab.keep s.sigrds (fun k _ => !mine k), stops := s.stops.filter (fun x => x.gid != gid),
                    parts := s.parts.upd g.space (fun p => { p with calls := Tab.keep p.calls (fun _ c => c.gid != gid) }),
                    tloads := Tab.keep s.tloads (fun _ x => !mine x.tid),
                    matq := Tab.mapVals s.matq (fun l => (l.filter (fun (e : MatEnt) => !mine e.tid)).map (fun (e : MatEnt) => { e with op := e.op.without gid })) }
  let s := { s with vreg := Tab.keep s.vreg (fun k _ => k / 16384 != gid), preg := Tab.keep s.preg (fun k _ => k / 1024 != gid),
                    ureg := Tab.keep s.ureg (fun k _ => k / 64 != gid), treg := Tab.keep s.treg (fun k _ => k / 16 != gid),
                    accs := Tab.keep s.accs (fun k _ => k / 8 != gid), planesA := s.planesA.erase gid,
                    planesS := s.planesS.erase gid,
                    opbuf := Tab.keep s.opbuf (fun k _ => k < lo || lo + r.opbuf * 1024 ≤ k),
                    threads := Tab.keep s.threads (fun k _ => !mine k),
                    traceSel := Tab.keep s.traceSel (fun _ x => x != gid) }
  let range := s.allocRange gid
  let s := s.freeSave g
  let s := { s with groups := s.groups.erase gid }
  let shares := s.groups.any (fun e => e.2.launch == g.launch && e.2.scrBase == g.scrBase && coreOf e.1 == coreOf gid)
  let s := if shares then s else (s.wipe range.1 range.2).freeScratch g.space
  if s.groups.any (fun e => e.2.space == g.space && coreOf e.1 == coreOf gid) then s
  else { s with slices := s.slices.erase (g.space * 256 + coreOf gid) }

/-- Kills a group with a kill code (R290): the launch keeps the first one (R122). The notice of R61 is the caller's. -/
def State.killGroup (s : State) (gid code : Nat) : State :=
  match s.groups.find gid with
  | none => s
  | some g =>
    let s := s.updLaunch g.launch (fun l => { l with firstKill := some (l.firstKill.getD code) })
    (s.traceEnd gid).removeGroup gid

/-- Kills a group with DOUBLE_FAULT (R288, R289), with its notice of class 3. -/
def State.doubleFault (s : State) (gid : Nat) : State :=
  let l := s.launch (s.group gid).launch
  (s.launchNotice l (dieOf (coreOf gid)) 3).killGroup gid 0x10

/-- A group that needs a ring of its space whose pages cannot be used any longer is killed (R38, R289). -/
def State.needQueue (s : State) (gid kind : Nat) : State :=
  let space := (s.group gid).space
  match s.kindQueue space kind with
  | some (_, q) => if s.queueSound space q then s else s.doubleFault gid
  | none => s

/-! ## Taking a trap and returning from one -/

/-- The physical address of a thread's trap frame (R176, R284). -/
def State.framePa (s : State) (tid : Nat) : Nat :=
  let g := s.group (gidOf tid)
  flatPa g.scrBase.toNat + (s.launch g.launch).record.scratch + 4096 * g.gidx + 64 * level0 tid

/-- TRAPSTATUS (R286). -/
def Thread.trapStatus (t : Thread) : Nat := bit t.paramBound + 2 * bit t.ceiling + 4 * bit t.inHandler

/-- The cause word of a frame, bytes 40 to 41 (R285). -/
def causeWord (c : Cause) (imprecise async reexec : Bool) : BitVec 16 :=
  BitVec.ofNat 16 (c.code + 256 * bit imprecise + 512 * bit async + 1024 * bit reexec)

/-- The 64 bytes of a frame (R285). -/
def frameBytesOf (t : Thread) (seq status : Nat) : List Byte :=
  toLE 8 t.trapPc.toNat ++ toLE 8 t.info0.toNat ++ toLE 8 t.info1.toNat ++ toLE 8 t.info2.toNat ++ toLE 8 t.info3.toNat ++
  toLE 2 t.trapCause.toNat ++ toLE 6 0 ++ toLE 8 seq ++ toLE 8 status

/-- TAKING A TRAP (R284 to R289): a precise cause inside a handler kills the group; otherwise the frame is built with the
resume address, the cause, its information and TRAPSTATUS at entry, INHANDLER is set, the notice of R61 is entered, and the
thread enters HANDLER, which kills the group if its slot may not be entered. An uncorrectable error of HANDLER's line is met when the
thread fetches it there (R295, R297); an error of the trap stack kills the group. -/
def State.takeTrap (s : State) (tid : Nat) (ti : TrapInfo) (resume : Addr) (imprecise async reexec : Bool) : State :=
  let gid := gidOf tid
  let g := s.group gid
  let l := s.launch g.launch
  let t := s.thread tid
  if t.inHandler || s.lostDie (s.framePa tid) then s.doubleFault gid
  else
    let t1 := { t with trapPc := resume, trapCause := causeWord ti.cause imprecise async reexec,
                       info0 := ti.i0, info1 := ti.i1, info2 := ti.i2, info3 := ti.i3 }
    let s := s.store (s.framePa tid) (frameBytesOf t1 l.seq t.trapStatus)
    let s := s.launchNotice l (dieOf (coreOf gid)) ti.cause.noticeClass
    let h := l.record.handler
    let s := s.updThread tid (fun _ => { t1 with inHandler := true, pc := h, st := .ready, entry := false, pastEnd := false,
                                                 since := s.stamp, result := none })
    let s := { s with stamp := s.stamp + 1 }
    -- a HANDLER in host memory is checked once its line has come
    let verdict := if h.toNat % 64 < 5 ∧ (s.hostLine (coreOf gid) g.space h.toNat).isSome then some Fetch.bad
      else s.enter (coreOf gid) g.space h.toNat h.toNat
    match verdict with
    | none => s
    | some .bad => s.updThread tid (fun t => { t with entry := true })
    | some .wait =>
      let s := s.updThread tid (fun t => { t with entry := true, st := .waiting (.page h.toNat) })
      (s.requestPage g.space (h.toNat / frameBytes) 3 8 (dieOf (coreOf gid)) (coreOf gid % 64) l.seq 0).needQueue gid 3
    | some _ => s.doubleFault gid

/-- What a thread waits for before the line of a code address can be looked at: its bytes from host memory (R43, R317). -/
def State.lineWait (s : State) (tid va : Nat) : Option Wait :=
  match s.hostLine (coreOf (gidOf tid)) (s.spaceOf tid) va with
  | some pa => if (s.thread tid).lines.contains pa then none else some (.fetch pa)
  | none => none
/-- The fetch of a line of host memory for a thread, unless it is under way. -/
def State.askLine (s : State) (tid pa : Nat) : State :=
  if s.fills.any (fun e => e.2.tid == tid && e.2.what == .line pa) then s
  else { s with fills := s.fills.put s.stamp { tid := tid, dst := [], flag := none, flagVal := 0, what := .line pa, inst := s.stamp },
                stamp := s.stamp + 1 }
/-- Fault entries for threads that have just been suspended on an absent page (R87, R94), and fetches from host memory (R43). -/
def State.faultPages (s : State) (access : Nat) (tids : List Nat) : State :=
  tids.foldl (fun s t =>
    match (s.thread t).st with
    | .waiting (.page va) =>
      match s.xlate (s.spaceOf t) (some (coreOf (gidOf t))) va with
      | .absent _ =>
        let core := coreOf (gidOf t)
        (s.requestPage (s.spaceOf t) (va / frameBytes) 3 access (dieOf core) (core % 64) (s.launchOf t).seq 0).needQueue (gidOf t) 3
      | _ => s
    | .waiting (.fetch pa) => s.askLine t pa
    | _ => s) s

/-- The information of a cause that gives the instruction's bits (R283). -/
def opTrap (c : Cause) (raw : Nat) : TrapInfo :=
  { cause := c, i0 := BitVec.ofNat 64 raw, i1 := BitVec.ofNat 64 (raw / 2 ^ 64) }
/-- The information of a cause at an address (R283): write and atomic bits, the code address and the virtual address. -/
def accTrap (c : Cause) (code : Addr) (write atomic : Bool) (va : Nat) : TrapInfo :=
  { cause := c, i1 := code.zeroExtend 64, i2 := BitVec.ofNat 64 (2 * bit write + 4 * bit atomic), i3 := BitVec.ofNat 64 va }

/-- Takes the first report that waits for a thread outside a handler (R288, R293): imprecise for the causes of a store,
asynchronous for the others; the resume address is the instruction not yet issued. A report of a store keeps in `i0` the
thread's retired count after the store, from which its skid count is taken (R283). -/
def State.deliver (s : State) (tid : Nat) (reexec : Bool) : State :=
  let t := s.thread tid
  match t.reports with
  | [] => s
  | r :: rest =>
    if t.inHandler then s
    else
      let s := s.updThread tid (fun t => { t with reports := rest })
      let imp := r.cause == .storeFault || r.cause == .pageLost
      let skid := min 64 (t.retired - r.i0.toNat)
      let r := if imp then { r with i0 := 0, i2 := r.i2 + BitVec.ofNat 64 (256 * skid) } else r
      s.takeTrap tid r t.pc imp (!imp) reexec

/-- RETURNING FROM A TRAP (R287): INHANDLER is cleared and the thread stands at the address its frame holds, whose entry has
been checked; arrivals at a barrier that it had not left stay only for that address (R362). A report that waited is taken
next, by `State.deliver`. -/
def State.leaveHandler (s : State) (tid : Nat) (dest : Addr) : State :=
  s.updThread tid (fun t => { t with inHandler := false, pc := dest, entry := false, pastEnd := false,
                                     arrived := t.arrived.filter (· == dest) })

/-! ## Lanes of an issue group -/

/-- A source of an instruction: its position (0 A, 1 B, 2 C), the operand and its 32-bit words. -/
structure Src where
  pos : Nat
  o : Operand
  words : Nat
  deriving DecidableEq, Repr

/-- The registers an instruction uses: sources, destinations with their words, and operands of other classes. -/
structure Uses where
  h : Header := default
  src : List Src := []
  dst : List (Operand × Nat) := []
  other : List Operand := []
  deriving DecidableEq, Repr

/-- Whether the guard of a thread passes (R17). -/
def State.guardOn (s : State) (h : Header) (tid : Nat) : Bool := (s.getP tid h.guard.toNat).getLsbD 0 != h.ginv

/-- An undeclared register, or a guard predicate in a group without the predicate class (R156, R324): the instruction's own
ILLEGAL_FIELD. -/
def State.undeclared (s : State) (u : Uses) (tid : Nat) : Bool :=
  let r := (s.launchOf tid).record
  !((u.h.guard == 0 || r.pclass) && u.src.all (fun x => r.declares x.o x.words) &&
    u.dst.all (fun x => r.declares x.1 x.2) && u.other.all (fun o => r.declares o 0))

/-- Registers of a thread's sources that block (R163): guard first, then sources without an empty-behaviour bit, then
destinations. -/
def State.blocking (s : State) (u : Uses) (tid : Nat) : List RegName :=
  (u.src.filter (fun x => !u.h.eb.getLsbD x.pos)).flatMap (fun x => (regsOf tid x.o x.words).filter s.isEmpty) ++
  u.dst.flatMap (fun x => (regsOf tid x.1 x.2).filter s.isEmpty)

/-- An empty source whose empty-behaviour bit is set (R21, R163, R283). -/
def State.emptyRead (s : State) (u : Uses) (tid : Nat) : Option TrapInfo :=
  match u.src.find? (fun x => u.h.eb.getLsbD x.pos && (regsOf tid x.o x.words).any s.isEmpty) with
  | some x => some { cause := .emptyRead, i2 := BitVec.ofNat 64 (x.pos + 256 * encOperand x.o) }
  | none => none

/-- A parameter word of an unbound window (R18). -/
def State.unbound (s : State) (u : Uses) (tid : Nat) : Option TrapInfo :=
  match u.src.find? (fun x => match x.o with
    | .w k _ => ((s.launchOf tid).record.win k.toNat).isNone
    | _ => false) with
  | some x => match x.o with
    | .w k _ => some { cause := .paramUnbound, i2 := BitVec.ofNat 64 k.toNat }
    | _ => none
  | none => none

/-- A parameter word beyond its window's bound sets PARAMBOUND (R18). -/
def State.beyond (s : State) (u : Uses) (tid : Nat) : Bool :=
  u.src.any (fun x => match x.o with
    | .w k n => match (s.launchOf tid).record.win k.toNat with
      | some (words, _) => words < n.toNat + x.words
      | none => false
    | _ => false)

/-- What a lane does at an instruction. -/
inductive Lane where
  | act
  | skip
  | drop (w : Wait)
  | trap (t : TrapInfo)
  deriving DecidableEq, Repr

/-- An instruction as its lanes run it: the registers it uses, causes of the instruction itself beyond R156, what makes a
lane wait, causes of a lane, and the effect of one lane, from the state before any lane acted and the state so far. -/
structure LaneOp where
  uses : Uses
  own : State → Nat → Bool := fun _ _ => false
  block : State → Nat → Option Wait := fun _ _ => none
  cause : State → Nat → Option TrapInfo := fun _ _ => none
  act : State → State → Nat → State
  /-- The act places the thread itself (branches, EXIT). -/
  jumps : Bool := false
  /-- A NOP does not count (R154). -/
  counts : Bool := true

/-- The first of two causes in the order of R282. -/
def firstCause (a b : Option TrapInfo) : Option TrapInfo :=
  match a, b with
  | none, x => x
  | x, none => x
  | some x, some y => if y.cause.rank < x.cause.rank then some y else some x

/-- An instruction that arms a token which is still pending waits until it is idle (R22). -/
def State.armWait (s : State) (h : Header) (tid : Nat) : Option Wait :=
  if h.arm && ((s.group (gidOf tid)).token h.atok.toNat).ops != 0 then some (.tokens (1 <<< h.atok.toNat)) else none

/-- Waits of a suspension (R137): the lane has issued its instruction and has begun what it waits for, so it counts in its issue slot and
in the ISSUE record (R302, R306, log 76). -/
def Wait.begun : Wait → Bool
  | .bar _ | .callRing _ | .call _ | .sleep _ | .yield _ | .phase .. | .drain _ | .tile .. | .room .. | .report | .tload | .acqr => true
  | _ => false
/-- A launch's first entry at a slot that is not marked as a target (R317). -/
def State.entryTrap (s : State) (tid : Nat) : Option TrapInfo :=
  if (s.thread tid).entry && !s.cur.tgt then some { cause := .badTarget, i3 := s.cur.pc.zeroExtend 64 } else none

/-- What the guard, the sources and the destinations of lane `tid`, its waits and its causes make of it (R17, R22, R142, R163, R282). -/
def LaneOp.meet (op : LaneOp) (s : State) (tid : Nat) : Lane :=
  let g := regsOf tid (.p op.uses.h.guard) 1
  if g.any s.isEmpty then .drop (.regs (g.filter s.isEmpty))
  else if !s.guardOn op.uses.h tid then .skip
  else
    let bl := s.blocking op.uses tid
    if bl ≠ [] then .drop (.regs bl)
    else match s.armWait op.uses.h tid with
      | some w => .drop w
      | none =>
        -- a source that is empty or unbound has no value to wait or to act on (R163, R282)
        match firstCause (s.unbound op.uses tid) (s.emptyRead op.uses tid) with
        | some t => .trap t
        | none =>
          match op.block s tid with
          | some w => .drop w
          | none =>
            match op.cause s tid with
            | some t => .trap t
            | none => .act
/-- What lane `tid` does: a first entry that may not be made is refused whatever the guard, unless a cause of the lane ranks before it
(R282, R317). -/
def LaneOp.lane (op : LaneOp) (s : State) (tid : Nat) : Lane :=
  match s.entryTrap tid with
  | none => op.meet s tid
  | some x => match op.meet s tid with
    | .trap t => .trap ((firstCause (some t) (some x)).getD x)
    | _ => .trap x

/-- A wait in SNAP: it ends in the SNAP itself, which is still to take its snapshot (R400). -/
def Wait.isSnap : Wait → Bool
  | .snap _ => true
  | _ => false
/-- A thread leaves an issue group to wait (R137, R142). -/
def State.toWait (s : State) (tid : Nat) (w : Wait) : State := s.updThread tid (fun t => { t with st := .waiting w })

/-- The threads of a list take their traps at the instruction (R281, R282); every other thread stays there, ready. -/
def State.trapAll (s : State) (pc : Addr) (l : List (Nat × TrapInfo)) : State :=
  l.foldl (fun s x => if (s.threads.find x.1).isSome then s.takeTrap x.1 x.2 (if x.2.cause = .soft then nextAddr pc else pc)
    false false false else s) s

/-- A SUMMARY record of a group (R306), with what it retired since the one before. -/
def State.summary (s : State) (gid : Nat) : State :=
  let g := s.group gid
  (s.trace g.space (coreOf gid) (gid % 512) 4
    (toLE 8 g.sinceSummary ++ toLE 8 (s.pathsig gid).toNat ++ toLE 8 (s.launch g.launch).seq ++ toLE 8 g.gtime.toNat)).updGroup gid
      (fun g => { g with sinceSummary := 0, unselected := 0 })
/-- One event of the instruction counters, for partition, launch and group (R154, R301); after 65,536 while it is not selected the group
writes its SUMMARY (R306). -/
def State.countRetired (s : State) (gid : Nat) : State :=
  let g := s.group gid
  let n := if s.isSelected gid then 0 else 1
  let s := ((s.bump 1 g.space 0 1).updLaunch g.launch (fun l => { l with retired := l.retired + 1, attempt := l.attempt + 1 })).updGroup gid
    (fun g => { g with retired := g.retired + 1, sinceSummary := g.sinceSummary + 1, unselected := g.unselected + n })
  if g.unselected + n < 65536 then s else s.summary gid
/-- A thread retires an instruction (R154, R293): it counts for its partition and its launch, and unless it has been placed
elsewhere it stands at the next address, ready with a new age. -/
def State.retire (s : State) (counts jumped : Bool) (tid : Nat) : State :=
  match s.threads.find tid with
  | none => s
  | some t =>
    let t := { t with retired := t.retired + 1, since := s.stamp, entry := false }
    let t := if jumped then t
      else { t with pc := nextAddr s.cur.pc, pastEnd := s.cur.last && slotOf s.cur.pc == 4 }
    let s := { s with threads := s.threads.put tid t, stamp := s.stamp + 1 }
    if counts then s.countRetired (gidOf tid) else s

/-- Whether a line is of kind 01: the last code line of its image (R316). -/
def lastLine (b : List Byte) : Bool := lineWord b / 2 ^ 14 % 4 == 1

/-- A thread suspended at an instruction which it has begun completes it: it retires there and is ready at the next address (R137,
R369, R408). In a halted group it is marked done, and does so when the group runs (R137, R82). -/
def State.retireAt (s : State) (tid : Nat) : State :=
  let t := s.thread tid
  let core := coreOf (gidOf tid)
  if (s.group (gidOf tid)).halted then s.updThread tid (fun t => { t with st := .replied })
  else
    let last := match s.fetch core (s.spaceOf tid) t.pc.toNat t.pc.toNat with | .line b => lastLine b | _ => false
    let cur := s.cur
    let s := s.updThread tid (fun t => { t with st := .ready })
    let s := { s with cur := { core := core, space := s.spaceOf tid, pc := t.pc, raw := 0, lanes := [tid], last := last, first := false } }
    { s.retire true false tid with cur := cur }

/-- A lane that waits leaves the issue group. -/
def State.dropLane (s : State) (x : Nat × Lane) : State := match x.2 with | .drop w => s.toWait x.1 w | _ => s
/-- The trap of a lane, if it has a cause. -/
def laneTrap (x : Nat × Lane) : Option (Nat × TrapInfo) := match x.2 with | .trap t => some (x.1, t) | _ => none
/-- Whether a lane issues the instruction with its guard passing: it acts, or begins what it then waits for. -/
def laneIssues (x : Nat × Lane) : Bool := match x.2 with | .act => true | .drop w => w.begun | _ => false
/-- Whether a lane stays in the issue group. -/
def laneGoes (x : Nat × Lane) : Bool := match x.2 with | .drop _ => false | _ => true
/-- One lane acts, from the values before; a parameter word beyond its bound sets PARAMBOUND (R18). -/
def LaneOp.actLane (op : LaneOp) (s c : State) (t : Nat) : State :=
  if (c.threads.find t).isSome then
    op.act s (if s.beyond op.uses t then c.updThread t (fun x => { x with paramBound := true }) else c) t
  else c

/-- Runs an instruction in the lanes of the issue group. An issue group may mix launches (R139): a register that one launch does not
declare is a cause of the instruction for the threads of that launch alone, and the others stay at it (log 59). Causes of the instruction trap every thread that meets them;
otherwise blocked lanes are dropped, and then either the lanes with a cause trap and nobody acts, or every acting lane acts
in ascending order from the values before, and every lane that was not dropped retires. -/
def LaneOp.run (op : LaneOp) (s : State) : State :=
  let ls := s.cur.lanes
  let own := ls.filter (fun t => s.undeclared op.uses t || op.own s t)
  if own ≠ [] then s.trapAll s.cur.pc (own.map (fun t => (t, opTrap .illegalField s.cur.raw)))
  else
    let cl := ls.map (fun t => (t, op.lane s t))
    let s1 := cl.foldl State.dropLane s
    let traps := cl.filterMap laneTrap
    if traps ≠ [] then s1.trapAll s.cur.pc traps
    else
      let acting := (cl.filter (fun x => x.2 == .act)).map (·.1)
      let s2 := acting.foldl (op.actLane s1) s1
      let going := cl.filter laneGoes
      let s3 := s2.traceIssue ((cl.filter laneIssues).map (·.1)) ((going.filter (fun x => x.2 == .skip)).map (·.1))
      going.foldl (fun c x => c.retire op.counts (op.jumps && x.2 == .act) x.1) s3

/-- The outcome of an instruction that completes. -/
def LaneOp.exec (op : LaneOp) (s : State) : Host.Outcome State Fault Refusal := .next (op.run s)

end Sys2Proof.Machine
end

