-- ==== Sys2Proof/Machine/Operands.lean ====
section
/-! DEFINITION. Operand forms: for every instruction, the registers it reads and writes with their widths (R18, R20, R155
to R158, R343, R387, R403), the effective address of a memory operand, and the values of its sources. -/
namespace Sys2Proof
open Machine

/-- Sources A, B, C of a V-format instruction; a width of 0 words means the position is not used. -/
def VForm.uses (f : VForm) (d a b c : Nat) : Uses :=
  { h := f.h, dst := if d = 0 then [] else [(f.d, d)],
    src := (if a = 0 then [] else [⟨0, f.a, a⟩]) ++ (if b = 0 then [] else [⟨1, f.b, b⟩]) ++ (if c = 0 then [] else [⟨2, f.c, c⟩]) }
def IForm.uses (f : IForm) (d a : Nat) : Uses :=
  { h := f.h, dst := if d = 0 then [] else [(f.d, d)], src := if a = 0 then [] else [⟨0, f.a, a⟩] }
/-- Words of an operand at width W (R343). -/
def VForm.w (f : VForm) : Nat := if f.wide then 2 else 1
def IForm.w (f : IForm) : Nat := if f.wide then 2 else 1

/-- Words of an access of a SIZE code (R325). -/
def sizeWords (c : Nat) : Nat := if c ≤ 2 then 1 else 2 ^ (c - 2)
/-- Bytes of an access of a SIZE code (R325). -/
def sizeBytes (c : Nat) : Nat := 2 ^ c

/-- Base and index of a memory operand (R20). -/
def MForm.addrSrc (f : MForm) (idxWords : Nat) : List Src :=
  ⟨0, f.base, 2⟩ :: (if f.idx.isV then [⟨1, f.idx, idxWords⟩] else [])
def MForm.words (f : MForm) : Nat := sizeWords f.size.toNat
/-- The flag predicate of a load (R179, R325). -/
def MForm.flag (f : MForm) : Operand := .p f.subop
def MForm.loadUses (f : MForm) (idxWords : Nat) : Uses :=
  { h := f.h, src := f.addrSrc idxWords, dst := [(f.data, f.words), (f.flag, 1)] }
def MForm.storeUses (f : MForm) (idxWords : Nat) : Uses :=
  { h := f.h, src := f.addrSrc idxWords ++ [⟨2, f.data, f.words⟩] }

/-- An operand that may be omitted. -/
def optSrc (pos : Nat) (o : Operand) (words : Nat) : List Src := if o.omitted then [] else [⟨pos, o, words⟩]

/-- Registers that each instruction reads and writes. -/
def Instr.uses : Instr → Uses
  | .nop f | .exitT f | .yield f | .nopre f | .preok f | .rte f | .drainst f | .invalid f => f.uses 0 0 0 0
  | .iadd f | .isub f | .imul f | .imulh f | .imin f | .imax f | .andB f | .orB f | .xorB f | .andnB f | .shl f | .shr f
  | .sar f | .rol f => f.uses f.w f.w f.w 0
  | .iaddI f | .isubI f | .imulI f | .imulhI f | .iminI f | .imaxI f | .andBI f | .orBI f | .xorBI f | .andnBI f | .shlI f
  | .shrI f | .sarI f | .rolI f => f.uses f.w f.w
  | .imad f | .bfe f | .bfi f => f.uses f.w f.w f.w f.w
  | .iaddc f => { f.uses f.w f.w f.w 1 with dst := [(f.d, f.w), (f.c, 1)] }
  | .iabs f | .ineg f | .notB f | .clz f | .popc f | .brev f | .mov f | .sext f | .zext f => f.uses f.w f.w 0 0
  | .icmp f => f.uses 1 (if f.a.isG then 2 else 1) (if f.a.isG then 2 else 1) 0
  | .icmpI f => f.uses 1 (if f.a.isG then 2 else 1)
  | .sel f => f.uses f.w f.w f.w 1
  | .lea f => { h := f.h, src := f.addrSrc 1, dst := [(f.data, 2)] }
  | .iaddw f => f.uses 2 2 1 0
  | .movi f => f.uses f.w 0
  | .movu f => { f.uses 2 0 with src := [⟨3, f.d, 2⟩] }
  | .fadd f | .fsub f | .fmul f | .fdiv f | .hadd2 f | .hmul2 f | .fscale f | .fmin f | .fmax f | .fcmp f | .hmax2 f
  | .packb f => f.uses 1 1 1 0
  | .faddI f | .fsubI f | .fmulI f | .fscaleI f | .fminI f | .fmaxI f | .fcmpI f => f.uses 1 1
  | .ffma f | .hfma2 f => f.uses 1 1 1 1
  | .fclass f => f.uses 1 1 (if f.d.isP then 1 else 0) 0
  | .frnd f | .frcp f | .frsq f | .fsqrt f | .fexp2 f | .flog2 f | .fsin f | .fcos f | .ftanh f | .cvt f | .unpackb f =>
    f.uses 1 1 0 0
  | .pand f | .por f | .pxor f | .pany f | .pall f => f.uses 1 1 1 0
  | .pnot f | .pmov f => f.uses 1 1 0 0
  | .bra f => { h := f.h }
  | .brx f => { h := f.h, src := [⟨0, f.opnd, 2⟩] }
  | .call f => { h := f.h, dst := [(f.opnd, 2)] }
  | .ret f => { h := f.h, src := [⟨0, f.opnd, 2⟩] }
  | .bar f | .sleep f | .trapI f | .bkpt f => f.uses 0 0
  | .elect f => f.uses 1 0 0 0
  | .vote f => f.uses (if f.sel = 2 then 2 else 1) 1 0 0
  | .shfl f => f.uses 1 1 1 0
  | .shflI f => f.uses 1 1
  | .greduce f => f.uses 1 1 0 0
  | .ld f | .ldu f | .acqr f => f.loadUses 1
  | .ldn f => f.loadUses f.words
  | .st f | .stu f => f.storeUses 1
  | .stn f => f.storeUses f.words
  | .ldparam f =>
    { h := f.h, src := if f.idx.isV then [⟨1, f.idx, 1⟩] else [], dst := [(f.data, f.words), (f.flag, 1)] }
  | .pagereq f => { h := f.h, src := f.addrSrc 1 }
  | .atom f =>
    { h := f.h, src := f.addrSrc 1 ++ [⟨2, f.data, if f.subop = 9 then 2 * f.words else f.words⟩],
      dst := [(f.data, f.words)] }
  | .atomf f => { h := f.h, src := f.addrSrc 1 ++ [⟨2, f.data, 1⟩], dst := [(f.data, 1)] }
  | .red f => { h := f.h, src := f.addrSrc 1 ++ [⟨2, f.data, f.words⟩] }
  | .fence f => { h := f.h }
  | .qctl f => { h := f.h, src := [⟨0, f.base, 2⟩], dst := [(f.data, 2)] }
  | .pin f => { f.uses 0 2 0 0 with other := [f.d] }
  | .unpin f => { f.uses 0 0 0 0 with other := [f.d] }
  | .reclaim f => f.uses 1 2 0 0
  | .reclwait f => { h := f.h, dst := [(f.d, 8), (f.a, 1)] }
  | .snap f => f.uses 2 0 0 0
  | .snapq f => f.uses 2 1 0 0
  | .copy f | .gcopy f => { h := f.h, src := [⟨0, f.a, 2⟩] ++ optSrc 1 f.b 2 ++ [⟨2, f.c, 1⟩] }
  | .binit f | .arrive f | .waitphase f => { h := f.h, src := [⟨0, f.a, 2⟩, ⟨1, f.b, 1⟩] }
  | .binitI f | .arriveI f | .waitphaseI f | .tfill f | .tempty f | .cretry f | .cskip f | .mma f =>
    { h := f.h, src := [⟨0, f.a, 2⟩] }
  | .testphase f => { h := f.h, src := [⟨0, f.a, 2⟩, ⟨1, f.b, 1⟩], dst := [(f.res, 1)] }
  | .testphaseI f => { h := f.h, src := [⟨0, f.a, 2⟩], dst := [(f.res, 1)] }
  | .tokwait f =>
    if f.poll then { h := f.h, dst := [(f.res, 1)] } else { h := f.h, src := [⟨1, f.b, 1⟩] }
  | .twait f => { h := f.h, src := [⟨0, f.a, 2⟩], dst := if f.poll then [(f.res, 1)] else [] }
  | .tres f => { h := f.h, src := [⟨0, f.a, 8⟩], other := [f.res] }
  | .trel f | .mzero f => { h := f.h, other := [f.res] }
  | .tload f => { h := f.h, src := [⟨0, f.a, 2⟩] ++ optSrc 1 f.b 2, other := [f.res] }
  | .mloadw f => { h := f.h, src := [⟨1, f.b, 1⟩], other := [f.a] }
  | .mloadwI f => { h := f.h, other := [f.a] }
  | .mswap f => { h := f.h }
  | .mhad f => { h := f.h, src := [⟨1, f.b, 1⟩], other := [f.res, f.a] }
  | .mhadI f => { h := f.h, other := [f.res, f.a] }
  | .mdrain f => { h := f.h, src := [⟨1, f.b, 2⟩, ⟨2, f.c, 1⟩], other := [f.a] }
  | .mread f => { h := f.h, src := [⟨1, f.b, 1⟩], dst := [(f.res, 4)], other := [f.a] }
  | .scall f =>
    { h := f.h, src := if scallNarg f.imm = 0 then [] else [⟨0, f.a, 2 * scallNarg f.imm⟩],
      dst := if scallNres f.imm = 0 then [] else [(f.d, 2 * scallNres f.imm)] }
  | .getsr f => f.uses (if srWidth f.imm.toNat == some 64 then 2 else 1) 0
  | .setsr f => f.uses 0 (if srWidth f.imm.toNat == some 64 then 2 else 1)
  | .cntrd f => f.uses 2 1 0 0
  | .cntrdI f => f.uses 2 0
  | .sigrd f => f.uses 0 2 2 0
  | .haltW f => f.uses 0 2 1 0
  | _ => {}

/-- The value of a source at width W (R343): 64 bits, or 32 zero-extended. -/
def Machine.State.srcW (s : State) (wide : Bool) (tid : Nat) (o : Operand) : Nat :=
  if wide then (s.src64 tid o).toNat else (s.src32 tid o).toNat
/-- An immediate at width W (R327, R343). -/
def immW (wide : Bool) (imm : W32) : Nat := if wide then (imm.signExtend 64).toNat else imm.toNat
/-- A result at width W (R343). -/
def Machine.State.wrW (s : State) (wide : Bool) (tid : Nat) (o : Operand) (x : Nat) : State :=
  if wide then s.wr64 tid o (BitVec.ofNat 64 x) else s.wr32 tid o (BitVec.ofNat 32 x)
/-- The bits of a width. -/
def widthBits (wide : Bool) : Nat := if wide then 64 else 32

/-- An operand that may be omitted, in a 64-bit position. -/
def Machine.State.opt64 (s : State) (tid : Nat) (o : Operand) : Option Nat :=
  if o.omitted then none else some (s.src64 tid o).toNat

/-- The effective address of a memory operand with the `j`-th word of the index (R20, R391): modulo 2^56. -/
def MForm.ea (f : MForm) (s : State) (tid j : Nat) : Nat :=
  let base := (s.src64 tid f.base).toNat
  let idx := match f.idx with | .v n => (s.getV tid (n.toNat + j)).toNat | _ => 0
  (((base + idx * 2 ^ f.scl.toNat : Nat) + f.ofs.toInt) % vaMod).toNat

/-- Bytes of a data register run, low register first (R157, R388). -/
def Machine.State.dataBytes (s : State) (tid : Nat) (o : Operand) (bytes : Nat) : List Byte :=
  match o with
  | .v n => ((upTo ((bytes + 3) / 4)).flatMap (fun i => toLE 4 (s.getV tid (n.toNat + i)).toNat)).take bytes
  | .g n => ((upTo ((bytes + 7) / 8)).flatMap (fun i => toLE 8 (s.getU (gidOf tid) (n.toNat + i)).toNat)).take bytes
  | _ => []
/-- Writes a value into a data register run, zero-extended to the registers (R157). -/
def Machine.State.wrData (s : State) (tid : Nat) (o : Operand) (bytes x : Nat) : State :=
  match o with
  | .v n => (upTo ((bytes + 3) / 4)).foldl (fun s i => s.setV tid (n.toNat + i) (BitVec.ofNat 32 (x / 2 ^ (32 * i)))) s
  | .g n => (upTo ((bytes + 7) / 8)).foldl (fun s i => s.setU (gidOf tid) (n.toNat + i) (BitVec.ofNat 64 (x / 2 ^ (64 * i)))) s
  | _ => s

/-- Registers an instruction reads, for the conditions of a pair (R27): sources, guard and memory operands. -/
def Machine.Uses.reads (u : Uses) (tid : Nat) : List RegName :=
  regsOf tid (.p u.h.guard) 1 ++ u.src.flatMap (fun x => regsOf tid x.o x.words)
def Machine.Uses.writes (u : Uses) (tid : Nat) : List RegName := u.dst.flatMap (fun x => regsOf tid x.1 x.2)

end Sys2Proof
end

