-- ==== Sys2Proof/Machine/Flags.lean ====
section
/-! DEFINITION. Tests and carries that are written to predicates (R159, R330, R347), and the exact integer helpers they and
the integer instructions share: an operand is converted to an integer, the result is computed exactly and narrowed once. -/
namespace Sys2Proof

/-- The signed value of a `bits`-wide operand. -/
def toSigned (bits x : Nat) : Int := if x < 2 ^ (bits - 1) then x else (x : Int) - 2 ^ bits
/-- Low bits of an exact result (R343). -/
def wrap (bits : Nat) (z : Int) : Nat := (z % 2 ^ bits).toNat
/-- A result clamped to the signed range (R345). -/
def clampS (bits : Nat) (z : Int) : Nat :=
  wrap bits (if z < -(2 ^ (bits - 1)) then -(2 ^ (bits - 1)) else if z ≥ 2 ^ (bits - 1) then 2 ^ (bits - 1) - 1 else z)
/-- Narrowing with or without `.sat`. -/
def narrow (bits : Nat) (sat : Bool) (z : Int) : Nat := if sat then clampS bits z else wrap bits z

/-- The integer conditions of R330 at a width. -/
def icond (sel bits a b : Nat) : Bool :=
  match sel with
  | 0 => a == b
  | 1 => a != b
  | 2 => toSigned bits a < toSigned bits b
  | 3 => toSigned bits a ≤ toSigned bits b
  | 4 => toSigned bits b < toSigned bits a
  | 5 => toSigned bits b ≤ toSigned bits a
  | 6 => a < b
  | 7 => a ≤ b
  | 8 => b < a
  | 9 => b ≤ a
  | _ => false

/-- Sum with a carry in, and the unsigned carry out (R347). -/
def addCarry (bits a b : Nat) (c : Bool) : Nat × Bool :=
  let s := a + b + bit c
  (s % 2 ^ bits, decide (2 ^ bits ≤ s))

/-- The predicate byte of a test (R159). -/
def testByte (b : Bool) : Byte := if b then 1 else 0

end Sys2Proof
end

