-- ==== Sys2Proof/Machine/Recovery.lean ====
section
/-! DEFINITION. Completion records, children that are discarded, launch generations, rollback and the consumption of an
uncorrectable error (R122, R124, R133, R187, R188, R295 to R298). -/
namespace Sys2Proof.Machine

/-- A completion record (R122). -/
def State.completionRecord (s : State) (l : Launch) (status reason : Nat) : List Byte :=
  toLE 8 l.seq ++ toLE 1 status ++ toLE 1 reason ++ toLE 1 (min 255 l.attempts) ++ toLE 1 0 ++ toLE 2 l.handle ++ toLE 2 0 ++
  toLE 8 (s.ref l.die).toNat ++ toLE 8 0

/-- Appends a completion record to the queue that COMPQ names (R122): `none` while that queue is full. Without a bound kind-0
queue of the space the record is dropped and counted. -/
def State.postCompletion (s : State) (l : Launch) (bs : List Byte) : Option State :=
  if l.record.compq = 0xFFFF then some s
  else match s.queue l.space l.record.compq with
    | some q => if q.kind = 0 then s.append l.space l.record.compq bs else some (s.bump 7 l.space 2 1)
    | none => some (s.bump 7 l.space 2 1)

/-- Forgets a launch, with the phase counts of its barriers. -/
def State.eraseLaunch (s : State) (id : Nat) : State :=
  { s with launches := s.launches.erase id, bars := Tab.keep s.bars (fun k _ => k / 2 ^ 83 != id) }


/-- A launch loses its replayability for good (R133). -/
def State.loseReplay (s : State) (id : Nat) : State :=
  let l := s.launch id
  if l.replayable then
    (s.updLaunch id (fun l => { l with replayable := false })).bump 3 l.space 2 1
  else s

/-! ## Generations (R181 to R188) -/

/-- Frees the aside frames of a generation that no other generation shares (R185 to R189). -/
def State.freeAsides (s : State) (p serial : Nat) : State :=
  match (s.part p).gens.find serial with
  | none => s
  | some g =>
    let others := ((s.part p).gens.filter (fun e => e.1 != serial)).flatMap (fun e => e.2.asides.map (·.2))
    let s := g.asides.foldl (fun s e => if others.contains e.2 then s else s.giveFrame e.2) s
    s.updGen p serial (fun g => { g with asides := [], held := [] })

/-- Discards a generation: aside frames and number are free, and its serial names none (R187, R189). -/
def State.dropGen (s : State) (p serial : Nat) : State :=
  let s := s.freeAsides p serial
  let x := s.part p
  s.setPart p { x with gens := x.gens.erase serial }

/-- Writes an image back to a granule, wherever its content is now (R188): what other generations share of it is copied aside first, or
kept where it is, and a page that is not resident takes the image as its copy in the lower tier. -/
def State.putGranule (s : State) (p page : Nat) (img : Image) : State :=
  match s.walk p page with
  | some (b, e) =>
    if e.valid then
      if e.kind = 0 then
        let f := e.addr / frameBytes + (page - b)
        let s := (s.asideNow p f).putImage (frameAddr f) img
        s.setFrame f { s.frame f with gen := (s.part p).curGen }
      else s
    else if e.state = 1 ∨ e.state = 2 ∨ e.state = 3 then
      let r := (s.holdFor (fun _ => true) p page).newSlot img
      r.2.setPage p b { e with state := 2, addr := r.1 }
    else s
  | none => s
/-- Writes every aside copy of a generation back to its granule (R188 step 2), those too that were evicted in the meantime (R185), and
takes the new cut. A page whose evicted copy fails its digest three times is LOST (R56, R96, log 78). -/
def State.restoreGen (s : State) (p serial : Nat) (cover : List Nat) : State :=
  match (s.part p).gens.find serial with
  | none => s
  | some g =>
    let s := g.asides.foldl (fun s e => s.putGranule p e.1 (s.imageOf (frameAddr e.2))) s
    let s := g.drained.foldl (fun s e =>
      if g.bad.contains e.1 then s.losePage p e.1 else s.putGranule p e.1 (s.slots.getD e.2 Image.blank)) s
    (s.freeAsides p serial).updGen p serial (fun g => { g with shared := cover, drained := [], bad := [] })

/-! ## The end of a launch -/

/-- Completes a launch with a status and reason (R122). A record that finds its queue full is kept, and everything else that the
launch held goes at once: its generation, its claims, its place as a blocking launch. -/
def State.complete (s : State) (id status reason : Nat) : State :=
  match s.launches.find id with
  | none => s
  | some l =>
    let bs := s.completionRecord l status reason
    let s := match l.gen with | some g => s.dropGen l.space g | none => s
    match s.postCompletion l bs with
    | some s' => s'.eraseLaunch id
    | none => s.updLaunch id (fun l => { l with phase := .ended, done := bs, gen := none, claimed := false, blocking := false })
/-- The parent of a record whose launch discards its children: none that can ever end (R124). -/
def discardedParent : Nat := 2 ^ 128
/-- Discards every child of a launch that is accepted and not yet eligible, with its own children, and the records that it appended
and no Flue has taken yet (R124). -/
def State.discardHeld : Nat → State → Nat → State
  | 0, s, _ => s
  | n + 1, s, parent =>
    let s := { s with queues := Tab.mapVals s.queues (fun q =>
      { q with parents := Tab.mapVals q.parents (fun x => if x = parent then discardedParent else x) }) }
    (s.launches.filter (fun e => e.2.phase == .held parent || (e.2.phase == .reading && e.2.parent == some parent))).foldl (fun s e =>
      State.complete (State.discardHeld n s e.1) e.1 3 0) s

/-- The pages of a launch's writable ranges (R134). -/
def Launch.rangePages (l : Launch) : List Nat :=
  l.ranges.flatMap (fun r => (upTo (r.2 / frameBytes)).map (fun i => r.1 / frameBytes + i))

/-- Units of tiles become empty or full. -/
def State.setUnits (s : State) (pa n : Nat) (full : Bool) : State :=
  let us := (upTo (n / 256)).map (fun i => pa / 256 + i)
  let rest := s.fullUnits.filter (fun u => !us.contains u)
  { s with fullUnits := if full then us.foldl (fun l u => insertAsc u l) rest else rest }

/-- Every group of a launch is taken off its core with a kill code (R290); `none` for a rollback, which is no kill. -/
def State.removeLaunch (s : State) (id : Nat) (code : Option Nat) : State :=
  (s.groupsOf id).foldl (fun s g => match code with | some c => s.killGroup g c | none => s.removeGroup g) s

/-- Collectives of a launch are cancelled (R280). -/
def State.cancelColls (s : State) (id : Nat) : State := { s with colls := Tab.keep s.colls (fun _ c => c.launch != id) }

/-- The list and the searches of a rolled-back launch (R227): its searches are discarded, an entry that it created and no other launch
has joined goes with a re-search of it, and one that was joined stays and is searched again. -/
def State.rollbackReclaims (s : State) (l : Launch) : State :=
  let x := s.part l.space
  let mine := fun (q : Search) => q.space == l.space && q.first && (match x.reclaims.find q.name with | some e => e.creator == l.seq | none => false)
  let names := (s.searches.filter (fun e => mine e.2)).map (fun e => e.2.name)
  let kept := Tab.keep x.reclaims (fun _ e => !(e.creator == l.seq && !e.joined))
  let again := kept.map (fun e => if names.contains e.1 then (e.1, { e.2 with running := false, redo := true }) else e)
  let lost := fun (q : Search) => q.space == l.space && !q.first && (kept.find q.name).isNone
  let s := { s with searches := Tab.keep s.searches (fun _ q => !(mine q || lost q)) }
  s.setPart l.space { x with reclaims := again }

/-- ROLLBACK of a replayable launch (R188, R298): its groups go, its writable ranges are restored from its generation, its
children are discarded, its result tiles are empty, its barriers are at phase 0 (R371), and it is eligible again with its wait counted
anew. The instructions of the attempt leave bank 1 for the replayed ones (R307, R312). -/
def State.rollback (s : State) (id : Nat) (replay : Bool) : State :=
  let l := s.launch id
  let s := (s.removeLaunch id none).cancelColls id
  let s := s.rollbackReclaims l
  let s := match l.gen with | some g => s.restoreGen l.space g l.rangePages | none => s
  let s := s.discardHeld s.launches.length id
  let s := l.tiles.foldl (fun s t => if t.result then s.setUnits t.pa t.size false else s) s
  let k := ctrNo 1 l.space 0
  let s := if replay then
      (({ s with ctrs := s.ctrs.putZ 0 k (s.ctrs.getD k 0 - l.attempt) }.bump 3 l.space 0 1).bump 3 l.space 1 l.attempt.toNat).discardEnergy id
    else s
  { s.updLaunch id (fun l => { l with
      phase := .eligible, since := (s.ref l.die).toNat, next := 0, sigs := [], attempt := 0, energy := 0, unfit := none, blocking := false,
      retired := if replay then l.retired - l.attempt else l.retired, attempts := if replay then l.attempts + 1 else l.attempts })
    with bars := Tab.keep s.bars (fun k _ => k / 2 ^ 83 != id) }

/-- A LAUNCH IS KILLED with a cause that is no trap (R290, R297, R299): its groups go, what it has not placed never is, and its held
children are discarded (R124). -/
def State.killLaunch (s : State) (id code : Nat) : State :=
  let s := (s.removeLaunch id (some code)).cancelColls id
  let s := s.updLaunch id (fun l => { l with next := l.record.instances, phase := .running, firstKill := some (l.firstKill.getD code) })
  s.discardHeld s.launches.length id

/-- A LAUNCH CONSUMES AN UNCORRECTABLE ERROR (R297, R298): the eighth consumption, or any of a launch that is not replayable,
kills it with cause 0x20 and discards its held children; otherwise it is rolled back. One notice of class 4 either way. -/
def State.consume (s : State) (id die : Nat) : State :=
  match s.launches.find id with
  | none => s
  | some l =>
    let s := s.launchNotice l die 4
    let s := s.updLaunch id (fun l => { l with consumptions := l.consumptions + 1 })
    if l.replayable && l.consumptions + 1 < 8 then s.rollback id true
    else
      (s.killLaunch id 0x20)

/-- The launch of a thread consumes an uncorrectable error. -/
def State.consumeAt (s : State) (tid : Nat) : State :=
  s.consume (s.group (gidOf tid)).launch (dieOf (coreOf (gidOf tid)))

end Sys2Proof.Machine
end

