-- ==== Sys2Proof/Machine/Access.lean ====
section
/-! DEFINITION. Accesses of threads to memory: what a load, an atomic or a store finds at its translation (R87, R88, R104,
R389), stores that retire before they resolve (R291 to R293), fills of registers that were marked empty (R162), windows
(R104 to R108) and atomics (R394, R395). -/
namespace Sys2Proof.Machine

/-! ## Stores of a thread that are not resolved -/

/-- The sector of an address of a space: the physical one where a leaf maps it, so that two pages on one frame meet (R194). -/
def State.sectorOf (s : State) (space va : Nat) : Nat :=
  match s.xlate space none va with
  | .leaf pa _ => pa / 32
  | _ => 2 ^ 80 + space * 2 ^ 56 + va / 32
def State.ownStores (s : State) (tid : Nat) : Tab PStore := Tab.keep s.stores (fun _ x => x.tid == tid)
/-- Whether a thread has a store to the sector of an address that is not resolved (R196). -/
def State.sectorPending (s : State) (tid va : Nat) : Bool :=
  let k := s.sectorOf (s.spaceOf tid) va
  (s.ownStores tid).any (fun e => s.sectorOf e.2.space e.2.va == k)
/-- Whether a store's translation does not let it take effect yet: its page is absent, or no leaf allows it (R291). -/
def State.mayFault (s : State) (x : PStore) : Bool :=
  match s.xlate x.space none x.va with
  | .leaf _ e => e.owner != x.space || !e.w
  | _ => true
/-- Whether a thread has earlier loads or atomics in flight (R197). -/
def State.fillsPending (s : State) (tid : Nat) : Bool := s.fills.any (fun e => e.2.tid == tid)
/-- A closed window packet of a thread that waits for room is a store that is not resolved (R105). -/
def State.packetPending (s : State) (tid : Nat) : Bool := s.queues.any (fun e => e.2.waiting.any (fun w => w.1 == tid))
def State.storesPending (s : State) (tid : Nat) : Bool := (s.ownStores tid) != [] || s.packetPending tid
/-- Whether a group has a store that issued before a stamp and is not resolved; a fault that has been found counts as resolved for the
others (R398). -/
def State.drainPending (s : State) (gid before : Nat) : Bool :=
  s.stores.any (fun e => e.1 < before && gidOf e.2.tid == gid) || (s.live gid).any s.packetPending
/-- Whether a store of a thread outside a handler is 64 instructions back and may still turn out to fault (R293). -/
def State.skidPending (s : State) (tid : Nat) : Bool :=
  !(s.thread tid).inHandler && (s.ownStores tid).any (fun e => e.2.atRet + 64 ≤ (s.thread tid).retired && s.mayFault e.2)
/-- Whether a RED of a thread has not read its place yet; with `acq`, one of acquire order (R191, R197). -/
def State.redPending (s : State) (tid : Nat) (acq : Bool) : Bool :=
  (s.ownStores tid).any (fun e => e.2.atom.isSome && (!acq || e.2.order == 1 || e.2.order == 3))

/-- Adds a report of a store, in program order among the store reports of the thread (R293). -/
def insertReport (r : TrapInfo) : List TrapInfo → List TrapInfo
  | [] => [r]
  | x :: l => if x.i0.toNat ≤ r.i0.toNat || x.cause == .copyFault || x.cause == .nopreExpired then x :: insertReport r l
    else r :: x :: l
def State.report (s : State) (tid : Nat) (r : TrapInfo) : State :=
  s.updThread tid (fun t => { t with reports := insertReport r t.reports })

/-! ## Loads -/

/-- What an element of a load finds (R87, R104, R389). -/
inductive Ld where
  /-- Resident; `late` when it marks its destination empty (R162). -/
  | here (pa : Nat) (late : Bool)
  /-- An absent page: zero and the flag. -/
  | absent
  /-- A dequeue load of a queue: its handle (R106). -/
  | window (handle : Nat) (off : Nat)
  | trap (t : TrapInfo)
  /-- A breach of R86. -/
  | bad
  deriving DecidableEq, Repr

/-- The queue whose window page holds an address. -/
def State.windowQueue (s : State) (space va : Nat) : Option (Nat × Queue) :=
  match s.queues.find? (fun e => e.1 / 65536 == space && e.2.kind != 6 && e.2.window == va / frameBytes) with
  | some e => some (e.1 % 65536, e.2)
  | none =>
    match s.queues.find? (fun e => e.1 / 65536 == space && e.2.kind == 6 && e.2.window == va / frameBytes) with
    | some e => some (e.1 % 65536, e.2)
    | none => none

/-- The element at `va` of `n` bytes, read by a thread whose instruction stands at the current address. -/
def State.ldFind (s : State) (tid va n : Nat) : Ld :=
  let space := s.spaceOf tid
  let core := coreOf (gidOf tid)
  let code := s.cur.pc
  if va % n ≠ 0 then .trap (accTrap .align code false false va)
  else match s.xlate space (some core) va with
    | .leaf pa e =>
      if e.kind = 4 then
        if n ≠ 32 then .trap (accTrap .align code false false va)
        else match s.windowQueue space va with
          | some (h, q) =>
            if e.rd && e.owner == space && va / 2 ^ 15 % 2 == 1 && (q.kind == 0 || q.kind == 4) then .window h (va % frameBytes)
            else .trap (accTrap .permLoad code false false va)
          | none => .trap (accTrap .permLoad code false false va)
      else if e.owner ≠ space ∨ !e.rd ∨ e.kind = 3 then .trap (accTrap .permLoad code false false va)
      else .here pa (!(e.kind == 1 && sliceCore pa == core))
    | .absent e => if e.state = 4 then .trap (accTrap .pageLost code false false va) else .absent
    | .none => .trap (accTrap .permLoad code false false va)
    | .breach => .bad

/-- The sectors that a pending fill reads or writes, by physical address. -/
def Fill.sectors (f : Fill) : List Nat :=
  match f.what with
  | .load _ els => els.filterMap (fun o => o.map (· / 32))
  | .atom pa .. => [pa / 32]
  | _ => []
/-- Whether an earlier load or atomic of a thread on one of some sectors is still pending. -/
def State.earlierFill (s : State) (id tid : Nat) (sectors : List Nat) : Bool :=
  s.fills.any (fun e => e.1 < id && e.2.tid == tid && e.2.sectors.any sectors.contains)

/-- The first trap of the elements of a load, or that a resident element waits for the thread's own store (R196). -/
def Ld.trap? : Ld → Option TrapInfo
  | .trap t => some t
  | _ => none
/-- What a load waits for at its elements: the thread's own stores to a resident one (R196), and, where it is performed at issue, an
earlier load or atomic of the thread on the same sector (R194). `now` when every element is performed at issue. -/
def State.ldWait (s : State) (tid : Nat) (els : List Nat) (n : Nat) (now : Bool := false) : Option Wait :=
  els.findSome? (fun va =>
    match s.ldFind tid va n with
    | .here pa late =>
      let flat := unalias (some (coreOf (gidOf tid))) va
      if s.sectorPending tid flat then some (.sector flat)
      else if (now || !late) && s.fills.any (fun e => e.2.tid == tid && e.2.sectors.contains (pa / 32)) then some .accesses else none
    | _ => none)

/-- An earlier load or atomic with acquire order is performed before any later access of its thread (R197). -/
def State.acqWait (s : State) (tid : Nat) : Option Wait :=
  if s.fills.any (fun e => e.2.tid == tid && e.2.acq) then some .accesses
  else if s.redPending tid true then some .stores else none
/-- What an access of an order waits for at issue: an acquire before it, and what a release waits for (R197, R293). -/
def State.ordWait (s : State) (tid ord : Nat) : Option Wait :=
  (s.acqWait tid).or (if ord = 2 ∨ ord = 3 then
    (if s.storesPending tid then some .stores else if s.fillsPending tid then some .accesses else none) else none)

/-- A translation that used a frame sets its REF bit (R89). -/
def State.touch (s : State) (pa : Nat) : State :=
  match frameOf pa with
  | some f => let o := s.frame f; if o.owner = 127 ∨ o.ref then s else s.setFrame f { o with ref := true }
  | none => s

/-- An id and age stamp that nothing has yet. -/
def State.fresh (s : State) : Nat × State := (s.stamp, { s with stamp := s.stamp + 1 })

/-- Adds a pending fill. -/
def State.addFill (s : State) (f : Fill) : State := { s with fills := s.fills.put s.stamp f, stamp := s.stamp + 1 }

/-- Fills a destination and its flag, and the registers are full again (R162). Of a thread that has exited only a register of its
group takes its value (R165, log 60). -/
def State.fillRegs (s : State) (f : Fill) (bytes x : Nat) : State :=
  let s := (f.dst.zipIdx.filter (fun e => !f.gone || e.1.uniform)).foldl (fun s e =>
    match e.1 with
    | .v t n => s.setV t n (BitVec.ofNat 32 (x / 2 ^ (32 * e.2)))
    | .u g n => s.setU g n (BitVec.ofNat 64 (x / 2 ^ (64 * e.2) % 2 ^ (8 * bytes)))
    | .p t n => s.setP t n (BitVec.ofNat 8 x)) s
  match f.flag with
  | some n => ((f.tid :: f.also).filter (fun t => (s.thread t).st != .exited)).foldl (fun s t => s.setP t n f.flagVal) s
  | none => s

/-- The value that elements of a load deliver, low element first. -/
def State.elsValue (s : State) (n : Nat) : List (Option Nat) → Nat
  | [] => 0
  | o :: r => (match o with | some pa => leNat (s.load pa n) | none => 0) + 2 ^ (8 * n) * State.elsValue s n r

/-- Poison under the elements of a load (R296). -/
def State.elsPoisoned (s : State) (n : Nat) (els : List (Option Nat)) : Bool :=
  els.any (fun o => match o with | some pa => s.poisoned pa n | none => false)

/-- The effect of a load of elements in one lane (R179, R389, R390): resident elements of the own slice and absent ones at
once, with the flag bits; otherwise a pending fill. -/
def State.doLoad (s : State) (tid : Nat) (also : List Nat) (dst : List RegName) (flag : Nat) (acq : Bool) (n : Nat)
    (els : List Nat) : State :=
  let found := els.map (fun va => s.ldFind tid va n)
  let pas := found.map (fun l => match l with | .here pa _ => some pa | _ => none)
  let fl := found.zipIdx.foldl (fun (a : Nat) e => if e.1 = .absent then a + 2 ^ e.2 else a) 0
  let f : Fill := { tid := tid, dst := dst, flag := some flag, flagVal := BitVec.ofNat 8 fl, what := .load n pas,
                    also := also, acq := acq, inst := s.cur.serial }
  let s := pas.foldl (fun s o => match o with | some pa => s.touch pa | none => s) s
  if found.any (fun l => l == .bad) then s.consumeAt tid
  else match found with
    | [.window h off] =>
      -- claiming an entry is an acquire (R107)
      s.addFill { f with flagVal := 0, acq := true, what := .dequeue h (off / 32 % 8) (off / 2 ^ 12 % 2 == 1) }
    | _ =>
      if found.any (fun l => match l with | .here _ late => late | _ => false) then s.addFill f
      else if s.elsPoisoned n pas then s.consumeAt tid
      else s.fillRegs f (n * els.length) (s.elsValue n pas)

/-! ## Atomics -/

/-- FP32 addition, minimum and maximum of ATOMF come from Machine/Float.lean; here as a parameter. -/
abbrev FltOp := Nat → Nat → Nat → Nat

/-- The new value of an atomic on integers (R394): SUBOP, width in bits, old value, operand, new value of a compare-and-swap. -/
def atomNew (op w old x new : Nat) : Nat :=
  match op with
  | 0 => (old + x) % 2 ^ w
  | 1 => if toSigned w x < toSigned w old then x else old
  | 2 => if toSigned w old < toSigned w x then x else old
  | 3 => if x < old then x else old
  | 4 => if old < x then x else old
  | 5 => old &&& x
  | 6 => old ||| x
  | 7 => old ^^^ x
  | 8 => x
  | _ => if old = x then new else old

/-- Whether REACH carries an operation at a scope as encoded (R88, R211, R395). -/
def reaches (e : PageEnt) (flt : Bool) (op w scope : Nat) : Bool :=
  match e.reach with
  | 1 => scope ≤ 5 && (e.kind == 0 || e.kind == 1)
  | 2 => e.kind == 0
  | 3 => e.kind == 2 && !flt && w == 64 && (op == 0 || op == 8 || op == 9)
  | _ => false

/-- What an atomic with a returned value finds (R389, R395). -/
inductive At where
  | here (pa : Nat) (late : Bool)
  /-- A residency fault on its page, or a granule that waits for copy-aside. -/
  | page (fault : Bool)
  | trap (t : TrapInfo)
  | bad
  deriving DecidableEq, Repr

def State.atFind (s : State) (tid va n : Nat) (flt : Bool) (op scope : Nat) : At :=
  let space := s.spaceOf tid
  let core := coreOf (gidOf tid)
  let code := s.cur.pc
  if va % n ≠ 0 then .trap (accTrap .align code true true va)
  else match s.xlate space (some core) va with
    | .leaf pa e =>
      -- ATOMIC_UNREACHABLE comes before PERM_LOAD (R282)
      if e.kind = 4 ∨ e.kind = 3 ∨ !reaches e flt op (8 * n) scope then .trap (accTrap .atomicUnreachable code true true va)
      else if e.owner ≠ space ∨ !e.w then .trap (accTrap .permLoad code true true va)
      else if e.kind = 0 && s.needsAside space pa then .page false
      else .here pa (!(e.kind == 1 && sliceCore pa == core))
    | .absent e => if e.state = 4 then .trap (accTrap .pageLost code true true va) else .page true
    | .none => .trap (accTrap .permLoad code true true va)
    | .breach => .bad

/-! ## Stores (R291) -/

/-- Issues a store or RED of one lane: it retires and waits to be resolved. -/
def State.addStore (s : State) (tid va : Nat) (data : List Byte) (order scope : Nat) (atom : Option (Nat × Bool × Nat × Nat)) :
    State :=
  let x : PStore := { tid := tid, space := s.spaceOf tid, va := unalias (some (coreOf (gidOf tid))) va, data := data,
                      order := order, scope := scope, atom := atom, code := s.cur.pc, atRet := (s.thread tid).retired + 1,
                      inst := s.cur.serial }
  { s with stores := s.stores.put s.stamp x, stamp := s.stamp + 1 }

/-- A store ends: it has taken effect, or it is discarded with a report (R291). -/
def State.endStore (s : State) (id : Nat) : State := { s with stores := s.stores.erase id }
def PStore.faultInfo (x : PStore) (c : Cause) : TrapInfo :=
  { cause := c, i0 := BitVec.ofNat 64 x.atRet, i1 := x.code.zeroExtend 64,
    i2 := BitVec.ofNat 64 (2 + 4 * bit x.atom.isSome), i3 := BitVec.ofNat 64 x.va }
def State.faultStore (s : State) (id : Nat) (x : PStore) (c : Cause) : State := (s.endStore id).report x.tid (x.faultInfo c)

/-- Whether a replayable launch may store at a place (R133, R134): in scratchpad its own allocations and its result tiles,
elsewhere its ranges. -/
def State.withinRanges (s : State) (launch : Nat) (va pa : Nat) (kind : Nat) : Bool :=
  let l := s.launch launch
  if kind = 1 then
    (s.groupsOf launch).any (fun g => let r := s.allocRange g; r.1 ≤ pa && pa < r.2) ||
    l.tiles.any (fun t => t.result && t.pa ≤ pa && pa < t.pa + t.size)
  else l.ranges.any (fun r => r.1 ≤ va && va < r.1 + r.2)
/-- A store of a launch at a place outside its ranges ends its replayability (R133, R134). -/
def State.noteStore (s : State) (launch va pa kind : Nat) : State :=
  if s.withinRanges launch va pa kind then s else s.loseReplay launch

/-- Keeps which launch appended a record to a launch queue (R123). -/
def State.fromLaunch (s : State) (space handle entry launch : Nat) : State :=
  match s.queue space handle with
  | some q => if q.kind = 1 then s.setQueue space handle { q with parents := q.parents.put entry launch } else s
  | none => s

/-- A packet closes and is appended, or waits for room (R105); the launch of the thread loses its replayability, but for a record that
a replayable launch appends to a launch queue (R109). A queue whose pages cannot be used kills the group (R289). -/
def State.closePacket (s : State) (id tid : Nat) (p : Packet) : State :=
  let p := { p with closedBy := id }
  let space := s.spaceOf tid
  let s := s.updThread tid (fun t => { t with packet := none })
  let l := s.launchOf tid
  let launch := (s.group (gidOf tid)).launch
  match s.queue space p.handle with
  | none => s
  | some q =>
    let s := if q.kind = 1 ∧ l.replayable then s else s.loseReplay launch
    if !s.queueSound space q then s.doubleFault (gidOf tid)
    else if q.waiting ≠ [] then s.setQueue space p.handle { q with waiting := q.waiting ++ [(tid, p)] }
    else match s.append space p.handle p.flits.flatten with
      | some s' => s'.fromLaunch space p.handle q.tail launch
      | none => s.setQueue space p.handle { q with waiting := q.waiting ++ [(tid, p)] }

/-- A flit stored to an enqueue half (R105): a packet that is open on another queue closes first. Any store to a window that is not of a
launch queue ends the replayability of the launch (R109, R133). -/
def State.storeFlit (s : State) (id tid handle off : Nat) (data : List Byte) : State :=
  let t := s.thread tid
  let launch := (s.group (gidOf tid)).launch
  let s := match s.queue (s.spaceOf tid) handle with
    | some q => if q.kind = 1 then s else s.loseReplay launch
    | none => s
  let s := match t.packet with
    | some p => if p.handle = handle then s else s.closePacket id tid p
    | none => s
  if (s.threads.find tid).isNone then s
  else
    let p : Packet := match (s.thread tid).packet with | some p => p | none => { handle := handle, flits := [] }
    let p := { p with flits := p.flits ++ [data] }
    if off / 2 ^ 12 % 2 = 1 then s.closePacket id tid p
    else s.updThread tid (fun t => { t with packet := some p })

/-- A read-modify-write on memory in one act (R394); `flt` gives the float operations. -/
def State.rmw (s : State) (flt : FltOp) (pa op : Nat) (isFlt : Bool) (n x new : Nat) : Nat × State :=
  let old := leNat (s.load pa n)
  let v := if isFlt then flt op old x else atomNew op (8 * n) old x new
  (old, if !isFlt && op = 9 && old ≠ x then s else s.store pa (toLE n v))

/-! ## Resolving a store (R87, R96, R105, R107, R194, R195, R291) -/

/-- Whether a pending store is one of a window. -/
def State.windowStore (s : State) (x : PStore) : Bool :=
  match s.xlate x.space none x.va with | .leaf _ e => e.kind == 4 && x.atom.isNone | _ => false
/-- Stores held in a core's record queue (R292). -/
def State.recordsHeld (s : State) (core : Nat) : Nat :=
  (s.stores.filter (fun e => e.2.held && coreOf (gidOf e.2.tid) == core)).length
/-- A store takes a record of its core's record queue, while there is one (R292). -/
def State.holdStore (s : State) (id : Nat) (x : PStore) : State :=
  if x.held ∨ 32 ≤ s.recordsHeld (coreOf (gidOf x.tid)) then s
  else { s with stores := s.stores.put id { x with held := true, heldAt := s.stamp }, stamp := s.stamp + 1 }
/-- Whether a held store may replay: its page has resolved, and no granule waits for copy-aside (R96, R185). -/
def State.mayReplay (s : State) (x : PStore) : Bool :=
  match s.xlate x.space none x.va with
  | .leaf pa e => !(e.kind == 0 && s.needsAside x.space pa)
  | .absent e => e.state == 4 || !s.pagePending x.space (x.va / frameBytes)
  | _ => true
/-- What a store waits for among the stores before it: one of its thread, or of a lower lane of its instruction, to the same sector
(R194, R195); one of its core that was held earlier and may replay (R96). -/
def State.storeBlocked (s : State) (id : Nat) (x : PStore) : Bool :=
  let sec := s.sectorOf x.space x.va
  s.stores.any (fun e => e.1 < id && (e.2.tid == x.tid || e.2.inst == x.inst) && s.sectorOf e.2.space e.2.va == sec) ||
  (x.held && s.stores.any (fun e => e.2.held && e.2.heldAt < x.heldAt && coreOf (gidOf e.2.tid) == coreOf (gidOf x.tid) && s.mayReplay e.2))
/-- Whether a store to the window of a queue closes a packet: its own with the last flit, or one that is open on another queue (R105). -/
def State.closes (s : State) (x : PStore) (handle : Nat) : Bool :=
  x.va / 2 ^ 12 % 2 == 1 || (match (s.thread x.tid).packet with | some p => p.handle != handle | none => false)
/-- What a store to a window waits for: the window stores of its thread and of lower lanes before it (R105), and, when it closes a packet,
which is a release, every earlier access of its thread (R107, R197). -/
def State.windowWait (s : State) (id : Nat) (x : PStore) (handle : Nat) : Bool :=
  s.stores.any (fun e => e.1 < id && (e.2.tid == x.tid || e.2.inst == x.inst) && s.windowStore e.2) ||
  (s.closes x handle && (s.stores.any (fun e => e.1 < id && e.2.tid == x.tid) || s.fills.any (fun e => e.1 < id && e.2.tid == x.tid) ||
    s.packetPending x.tid))

/-- RESOLVING A STORE (R87, R104, R105, R113, R185, R291): it takes effect, is held, or is discarded with a report. What comes
before it, or a KIND-2 page, keeps it waiting; behind a held store of its thread to its sector it is held too (R96). An atomic that
its page does not carry when it replays is reported as STORE_FAULT (R88, log 61). -/
def State.resolveStore (s : State) (flt : FltOp) (id : Nat) : State :=
  match s.stores.find id with
  | none => s
  | some x =>
    if s.storeBlocked id x then
      if s.stores.any (fun e => e.1 < id && e.2.held && e.2.tid == x.tid && s.sectorOf e.2.space e.2.va == s.sectorOf x.space x.va) then
        s.holdStore id x
      else s
    else
      let page := x.va / frameBytes
      let launch := (s.group (gidOf x.tid)).launch
      match s.xlate x.space none x.va with
      | .leaf pa e =>
        if e.owner ≠ x.space ∨ !e.w then s.faultStore id x .storeFault
        else if e.kind = 4 then
          match s.windowQueue x.space x.va, x.atom with
          | some (h, _), none =>
            if x.data.length = 32 ∧ x.va / 2 ^ 15 % 2 = 0 then
              if s.windowWait id x h then s else (s.endStore id).storeFlit id x.tid h (x.va % frameBytes) x.data
            else s.faultStore id x .storeFault
          | _, _ => s.faultStore id x .storeFault
        else if e.kind = 3 then
          if x.data.length ≠ 4 ∨ x.atom.isSome then s.faultStore id x .storeFault
          else
            let s := s.noteStore launch x.va pa 3
            if (s.pkg.links.getD 16 {}).state = 2 then s
            else if (s.pkg.links.getD 16 {}).state = 3 then (s.endStore id).bump 8 x.space 0 1
            else { s.endStore id with pkg.bells := s.pkg.bells ++ [(pa, BitVec.ofNat 32 (leNat x.data))] }
        else if (match x.atom with | some (op, f, n, _) => !reaches e f op (8 * n) x.scope | none => false) then
          s.faultStore id x .storeFault
        else if e.kind = 2 ∨ s.earlierFill id x.tid [pa / 32] then s
        else if e.kind = 0 && s.needsAside x.space pa then s.holdStore id x
        else
          let s := s.noteStore launch x.va pa e.kind
          if s.lostDie pa then (s.endStore id).consumeAt x.tid
          else match x.atom with
          | none => (s.endStore id).store pa x.data
          | some (op, f, n, v) =>
            if s.poisoned pa n then (s.endStore id).consumeAt x.tid
            else ((s.endStore id).rmw flt pa op f n v 0).2
      | .absent e =>
        if e.state = 4 then s.faultStore id x .pageLost
        else if x.held ∧ s.pagePending x.space page then s
        else
          let core := coreOf (gidOf x.tid)
          let s1 := s.holdStore id x
          if !x.held ∧ s1.recordsHeld core = s.recordsHeld core then s
          else (s1.requestPage x.space page 1 (if x.atom.isSome then 4 else 2) (dieOf core) (core % 64) (s.launchOf x.tid).seq 1).needQueue
            (gidOf x.tid) 3
      | .none => s.faultStore id x .storeFault
      | .breach => (s.endStore id).consumeAt x.tid

/-- What a store meets before anything retires: misalignment (R388). -/
def State.stCause (s : State) (va n : Nat) (atomic : Bool) : Option TrapInfo :=
  if va % n ≠ 0 then some (accTrap .align s.cur.pc true atomic va) else none

/-- Flits in a core's window buffer (R105): of packets that are open, unless they are spilt with their thread's rows (R108), of packets
that wait for room, and of window stores that have retired and not reached their packet. -/
def State.windowFlits (s : State) (core : Nat) : Nat :=
  (s.threads.filter (fun e => coreOf (gidOf e.1) == core && !(s.group (gidOf e.1)).spilt.getLsbD 0)).foldl (fun n e =>
    n + (match e.2.packet with | some p => p.flits.length | none => 0)) 0 +
  s.queues.foldl (fun n e => n + (e.2.waiting.filter (fun w => coreOf (gidOf w.1) == core)).foldl
    (fun m w => m + w.2.flits.length) 0) 0 +
  (s.stores.filter (fun e => coreOf (gidOf e.2.tid) == core && s.windowStore e.2)).length

/-- Whether a store to an address needs a record of the record queue, as its page stands (R87, R96, R185, R292). -/
def State.needsRecord (s : State) (tid va : Nat) : Bool :=
  match s.xlate (s.spaceOf tid) (some (coreOf (gidOf tid))) va with
  | .leaf pa e => (e.kind == 0 && s.needsAside (s.spaceOf tid) pa) ||
      (s.ownStores tid).any (fun x => x.2.held &&
        s.sectorOf x.2.space x.2.va == s.sectorOf (s.spaceOf tid) (unalias (some (coreOf (gidOf tid))) va))
  | .absent e => e.state != 4
  | _ => false
/-- Stores of a core that have retired, hold no record, and need one (R292). -/
def State.recordsDue (s : State) (core : Nat) : Nat :=
  (s.stores.filter (fun e => !e.2.held && coreOf (gidOf e.2.tid) == core && s.needsRecord e.2.tid e.2.va)).length
/-- Whether a store to an address is one to a window. -/
def State.windowVa (s : State) (tid va : Nat) : Bool :=
  match s.xlate (s.spaceOf tid) (some (coreOf (gidOf tid))) va with | .leaf _ e => e.kind == 4 | _ => false
/-- Why the memory pipe does not accept the stores of a lane at some addresses, after those of the lanes below it (R105, R141, R292): the
window buffer or the record queue has no room for them all (log 77). -/
def State.storePipe (s : State) (lower : List (Nat × Nat)) (tid : Nat) (vas : List Nat) : Option Wait :=
  let core := coreOf (gidOf tid)
  let flits := vas.countP (s.windowVa tid)
  let recs := vas.countP (s.needsRecord tid)
  if flits ≠ 0 ∧ 256 < s.windowFlits core + lower.countP (fun x => s.windowVa x.1 x.2) + flits then some (.pipe 1)
  else if recs ≠ 0 ∧ 32 < s.recordsHeld core + s.recordsDue core + lower.countP (fun x => s.needsRecord x.1 x.2) + recs then some (.pipe 0)
  else none

/-- A scope above the ceiling runs at the ceiling and sets CEILING (R210). -/
def State.ceil (s : State) (tid scope : Nat) : State :=
  if (s.part (s.spaceOf tid)).sceil < scope then s.updThread tid (fun t => { t with ceiling := true }) else s

/-! ## Counters (R301, R427) -/

/-- What a bank's rights row refuses is delivered as this pattern (R52, R53). -/
def refusedWord : Nat := 0xDEAD000000000000
/-- The energy account of a subject (R311): a partition, the auditor space, or the device account. -/
def State.account (s : State) (subject : Nat) : Energy := if subject = 0xFF then s.pkg.energy else (s.part subject).energy
/-- The counter number `n` as a kernel of a launch reads it (R301): an owner's subject is its own partition. -/
def State.readCtr (s : State) (n launch : Nat) : Nat :=
  let l := s.launch launch
  let aud := l.space == 64
  let bank := n / 2 ^ 28 % 16
  let subject := if aud then n / 2 ^ 20 % 256 else l.space
  let i := n % 2 ^ 20
  if bank = 2 then
    if !aud then refusedWord
    else if subject ≤ 64 ∨ subject = 0xFF then (if i < 8 then ((s.account subject).fields.getD i 0).toNat else 0) else 0
  else if 3 ≤ bank && bank ≤ 8 && !aud then refusedWord
  else if 64 < subject then 0
  else if bank = 1 ∧ i = 1 then l.retired.toNat
  else (s.ctrs.getD (ctrNo bank subject i) 0).toNat

/-! ## The end of a group (R122, R359) -/

/-- Ends a group whose last thread has exited: its pins and its hold go at once; its slices of collectives go on without a
token; the group goes when its fills, the matrix operations and the tile loads it queued have completed (R122, R165, R262, R359). -/
def State.endGroup (s : State) (gid : Nat) : State :=
  if (s.groups.find gid).isSome ∧ s.live gid = [] then
    let s := (s.dropPins gid (s.group gid).space).updGroup gid (fun g => { g with hold := none })
    if s.fills.any (fun e => gidOf e.2.tid == gid) || s.matq.any (fun q => q.2.any (fun e => gidOf e.tid == gid)) ||
        s.tloads.any (fun e => gidOf e.2.tid == gid) then s
    else
      let leave := fun (x : CSlice) => if x.gid = gid then { x with gid := goneGid, tid := goneGid * 64, tok := none } else x
      let s := { s with colls := Tab.mapVals s.colls (fun c => { c with slices := c.slices.map leave }) }
      (s.traceEnd gid).removeGroup gid
  else s

/-! ## Filling (R162) -/

/-- A dequeue load (R106): claims the oldest unclaimed entry if the thread holds no claim on the queue, reads the flit, and
releases the entry if the load asks for it; any load from a window ends the replayability of the launch (R109, R133). Answers the 32
bytes, whether the queue was empty, and the state. -/
def State.dequeue (s : State) (tid handle flit : Nat) (rel : Bool) : List Byte × Bool × State :=
  let space := s.spaceOf tid
  let zeros := List.replicate 32 (0 : Byte)
  let s := s.loseReplay (s.group (gidOf tid)).launch
  let s := match (s.thread tid).claim with
    | some c => if c.handle = handle then s
      else (s.release space c).updThread tid (fun t => { t with claim := none })
    | none => s
  match s.queue space handle with
  | none => (zeros, true, s)
  | some q =>
    let claimed : Option Claim := match (s.thread tid).claim with
      | some c => some c
      | none =>
        if (q.tail + 2 ^ 32 - q.nextClaim) % 2 ^ 32 = 0 then none else some { handle := handle, entry := q.nextClaim }
    match claimed with
    | none => (zeros, true, s)
    | some c =>
      let s := if (s.thread tid).claim = none then
          s.setQueue space handle { q with nextClaim := (q.nextClaim + 1) % 2 ^ 32 }
        else s
      let bs := if q.esize ≤ flit then zeros else s.loadVa space (q.entryVa c.entry + 32 * flit) 32
      -- a thread that has exited keeps no claim (R108)
      if rel || (s.thread tid).st == .exited then (bs, false, (s.release space c).updThread tid (fun t => { t with claim := none }))
      else (bs, false, s.updThread tid (fun t => { t with claim := some c }))

/-- Whether the flit that a dequeue load would read is poisoned in memory (R295, R296). -/
def State.dequeuePoisoned (s : State) (tid handle flit : Nat) (q : Queue) : Bool :=
  let entry := match (s.thread tid).claim with
    | some c => if c.handle = handle then some c.entry else if q.tail = q.nextClaim then none else some q.nextClaim
    | none => if q.tail = q.nextClaim then none else some q.nextClaim
  match entry with
  | some e => decide (flit < q.esize) && s.vaPoisoned (s.spaceOf tid) (q.entryVa e + 32 * flit) 32
  | none => false
/-- The register that a fill of an ACQR writes is written, and its thread goes on (R137, R397). -/
def State.endAcqr (s : State) (tid : Nat) : State := if (s.thread tid).st = .waiting .acqr then s.retireAt tid else s
/-- A fill is over: its registers are full with what it delivers, an ACQR goes on, and a group that only waited for it ends. -/
def State.doneFill (s : State) (id : Nat) (f : Fill) (bytes x : Nat) : State :=
  let s := ({ s with fills := s.fills.erase id }).fillRegs f bytes x
  let s := if f.acqr then s.endAcqr f.tid else s
  if f.gone then s.endGroup (gidOf f.tid) else s
/-- What comes before a fill: an earlier load or atomic of its thread on one of its sectors (R194), an atomic of a lower lane of its
instruction (R195), an earlier dequeue load (R106), or an earlier reading of the same time register of the group (R425). -/
def State.fillBlocked (s : State) (id : Nat) (f : Fill) : Bool :=
  s.earlierFill id f.tid f.sectors ||
  (match f.what with
    | .atom pa .. => s.fills.any (fun e => e.1 < id && e.2.inst == f.inst && (match e.2.what with
        | .atom q .. => q / 32 == pa / 32
        | _ => false))
    | .dequeue .. => s.fills.any (fun e => e.1 < id && e.2.tid == f.tid && (match e.2.what with | .dequeue .. => true | _ => false))
    | .time k => s.fills.any (fun e => e.1 < id && gidOf e.2.tid == gidOf f.tid && e.2.what == .time k)
    | _ => false)
/-- Completes a pending fill, if what it reads is there (R162): it reads memory now, and the thread consumes an error of a
poisoned sector (R296). An atomic writes, and counts as a store of its launch (R134). -/
def State.completeFill (s : State) (flt : FltOp) (id : Nat) : State :=
  match s.fills.find id with
  | none => s
  | some f =>
    let g := gidOf f.tid
    if s.fillBlocked id f then s
    else match f.what with
    | .load n els =>
      if s.elsPoisoned n els then ({ s with fills := s.fills.erase id }).consumeAt f.tid
      else s.doneFill id f (n * els.length) (s.elsValue n els)
    | .atom pa op isFlt n x new =>
      -- a granule that has come to be shared since waits for its copy (R185)
      if s.needsAside (s.spaceOf f.tid) pa then s
      else if s.poisoned pa n then ({ s with fills := s.fills.erase id }).consumeAt f.tid
      else let r := s.rmw flt pa op isFlt n x new; r.2.doneFill id f n r.1
    | .value x | .ready x => s.doneFill id f 32 x
    | .time k => s.doneFill id f 8 (if k = 0 then (s.group g).gtime else (s.group g).stolen).toNat
    | .dequeue h flit rel =>
      match s.queue (s.spaceOf f.tid) h with
      | some q =>
        if !s.queueSound (s.spaceOf f.tid) q then s.doubleFault g
        else if s.dequeuePoisoned f.tid h flit q then ({ s with fills := s.fills.erase id }).consumeAt f.tid
        else
          let (bs, empty, s) := s.dequeue f.tid h flit rel
          s.doneFill id { f with flagVal := if empty then 1 else 0 } 32 (leNat bs)
      | none =>
        let (bs, empty, s) := s.dequeue f.tid h flit rel
        s.doneFill id { f with flagVal := if empty then 1 else 0 } 32 (leNat bs)
    | .ctr n l => s.doneFill id f 8 (s.readCtr n l)
    | .line pa => ({ s with fills := s.fills.erase id }).updThread f.tid (fun t =>
        { t with lines := pa :: t.lines.take 1, st := if t.st = TState.waiting (.fetch pa) then .ready else t.st })
    | .reclaim _ | .mread => s

end Sys2Proof.Machine
end

