-- ==== Sys2Proof/Machine/Float.lean ====
section
/-! DEFINITION. Number formats and rounding (R228 to R246): a bit pattern is decoded to an exact value, the result is computed
exactly, and it is rounded once. -/
namespace Sys2Proof.Machine.Flt
open Sys2Proof

/-- A binary floating-point format (R228): exponent and mantissa bits, bias, whether it has infinities, the bits of Max and of
the canonical NaN. -/
structure FFmt where
  ebits : Nat
  mbits : Nat
  bias : Nat
  hasInf : Bool
  maxBits : Nat
  nanBits : Nat
  deriving DecidableEq, Repr

def f32 : FFmt := ⟨8, 23, 127, true, 0x7F7FFFFF, 0x7FC00000⟩
def bf16 : FFmt := ⟨8, 7, 127, true, 0x7F7F, 0x7FC0⟩
def f16 : FFmt := ⟨5, 10, 15, true, 0x7BFF, 0x7E00⟩
def e5m2 : FFmt := ⟨5, 2, 15, true, 0x7B, 0x7E⟩
def e4m3 : FFmt := ⟨4, 3, 7, false, 0x7E, 0x7F⟩

/-- An exact value: a finite one is m * 2^e with a sign, which a zero keeps. -/
inductive Val where
  | nan
  | inf (neg : Bool)
  | fin (neg : Bool) (m : Nat) (e : Int)
  deriving DecidableEq, Repr

def FFmt.signBit (f : FFmt) : Nat := 2 ^ (f.ebits + f.mbits)
/-- Weight of the lowest bit of a subnormal, as a power of two. -/
def FFmt.emin (f : FFmt) : Int := 1 - (f.bias : Int) - f.mbits

/-- The value of a bit pattern (R228). -/
def FFmt.decode (f : FFmt) (x : Nat) : Val :=
  let neg := x / f.signBit % 2 == 1
  let e := x / 2 ^ f.mbits % 2 ^ f.ebits
  let m := x % 2 ^ f.mbits
  if f.hasInf ∧ e = 2 ^ f.ebits - 1 then (if m = 0 then .inf neg else .nan)
  else if !f.hasInf ∧ x % f.signBit = f.nanBits then .nan
  else if e = 0 then .fin neg m f.emin
  else .fin neg (2 ^ f.mbits + m) (f.emin + (e - 1 : Nat))

/-- Rounding of a magnitude m * 2^e to a multiple of 2^q under RND (R235, R236, R331): the multiple. -/
def roundAt (rnd : Nat) (neg : Bool) (m : Nat) (e q : Int) : Nat :=
  if q ≤ e then m * 2 ^ (e - q).toNat
  else
    let d := 2 ^ (q - e).toNat
    let n := m / d
    let r := m % d
    if r = 0 then n
    else match rnd with
      | 0 => if d < 2 * r ∨ (2 * r = d ∧ n % 2 = 1) then n + 1 else n
      | 1 => if n % 2 = 0 then n + 1 else n
      | 2 => n
      | 3 => if neg then n + 1 else n
      | _ => if neg then n else n + 1

/-- Sat (R237) of a rounded bit pattern. -/
def FFmt.satBits (f : FFmt) (neg : Bool) : Nat := (if neg then f.signBit else 0) + f.maxBits

/-- Round(x, F, RND), then Sat when `sat` (R235 to R237, R331). -/
def FFmt.round (f : FFmt) (rnd : Nat) (sat : Bool) (v : Val) : Nat :=
  let beyond := fun (neg : Bool) => if sat || !f.hasInf then f.satBits neg else (if neg then f.signBit else 0) + f.maxBits + 1
  match v with
  | .nan => f.nanBits
  | .inf neg => beyond neg
  | .fin neg m e =>
    let sgn := if neg then f.signBit else 0
    if m = 0 then sgn
    else
      let q := max f.emin ((Nat.log2 m : Int) + e - f.mbits)
      let n := roundAt rnd neg m e q
      let bits := (q - f.emin).toNat * 2 ^ f.mbits + n
      if bits ≤ f.maxBits then sgn + bits
      else match rnd with
        | 0 => beyond neg
        | 1 | 2 => f.satBits neg
        | 3 => if neg then beyond neg else f.satBits neg
        | _ => if neg then f.satBits neg else beyond neg

/-- Rounding to an integer, clamped to a range; a NaN gives 0 and an infinity the end of its sign (R235, R239, R383). -/
def roundInt (rnd : Nat) (lo hi : Int) : Val → Int
  | .nan => 0
  | .inf neg => if neg then lo else hi
  | .fin neg m e =>
    let n : Int := roundAt rnd neg m e 0
    max lo (min hi (if neg then -n else n))

/-- The grid of INT8 (R230). -/
def int8 (rnd : Nat) (v : Val) : Nat := wrap 8 (roundInt rnd (-128) 127 v)

def ofInt (z : Int) : Val := .fin (z < 0) z.natAbs 0

/-! ## Exact arithmetic (R229, R373, R374) -/

def Val.negate : Val → Val
  | .nan => .nan
  | .inf n => .inf !n
  | .fin n m e => .fin (!n) m e

/-- The signed integer of a value in units of 2^q, for q at most its exponent. -/
def scaled (neg : Bool) (m : Nat) (e q : Int) : Int :=
  let x : Int := (m * 2 ^ (e - q).toNat : Nat)
  if neg then -x else x

/-- A sum; an exact zero from opposite signs is +0, or -0 under `.rm` (R373). -/
def add (rnd : Nat) : Val → Val → Val
  | .nan, _ => .nan
  | _, .nan => .nan
  | .inf a, .inf b => if a = b then .inf a else .nan
  | .inf a, _ => .inf a
  | _, .inf b => .inf b
  | .fin a m e, .fin b n f =>
    let q := min e f
    let z := scaled a m e q + scaled b n f q
    if z = 0 then .fin (if a = b then a else rnd == 3) 0 0 else .fin (z < 0) z.natAbs q

def mul : Val → Val → Val
  | .nan, _ => .nan
  | _, .nan => .nan
  | .inf a, .inf b => .inf (a != b)
  | .inf a, .fin b n _ => if n = 0 then .nan else .inf (a != b)
  | .fin a m _, .inf b => if m = 0 then .nan else .inf (a != b)
  | .fin a m e, .fin b n f => .fin (a != b) (m * n) (e + f)

/-- A quotient of magnitudes kept to many bits, with a low bit that says whether it is inexact: it rounds to any format of
R228 as the exact quotient does. -/
def sticky (n d : Nat) (e : Int) (neg : Bool) : Val :=
  if n % d = 0 then .fin neg (n / d) e else .fin neg (2 * (n / d) + 1) (e - 1)

/-- A quotient (R379). -/
def div : Val → Val → Val
  | .nan, _ => .nan
  | _, .nan => .nan
  | .inf _, .inf _ => .nan
  | .inf a, .fin b _ _ => .inf (a != b)
  | .fin a _ _, .inf b => .fin (a != b) 0 0
  | .fin a m e, .fin b n f =>
    if n = 0 then (if m = 0 then .nan else .inf (a != b))
    else if m = 0 then .fin (a != b) 0 0
    else sticky (m * 2 ^ 128) n (e - f - 128) (a != b)

/-- Integer square root, one bit of the result at a time from bit `k` down. -/
def isqrtFrom : Nat → Nat → Nat → Nat
  | 0, _, r => r
  | k + 1, n, r => let t := r + 2 ^ k; isqrtFrom k n (if t * t ≤ n then t else r)
def isqrt (n : Nat) : Nat := isqrtFrom (Nat.log2 n / 2 + 1) n 0

/-- A square root (R379). -/
def sqrt : Val → Val
  | .nan => .nan
  | .inf neg => if neg then .nan else .inf false
  | .fin neg m e =>
    if m = 0 then .fin neg 0 0
    else if neg then .nan
    else
      let odd := e % 2 = 1
      let m' := (if odd then 2 * m else m) * 2 ^ 128
      let e' := ((if odd then e - 1 else e) - 128) / 2
      let r := isqrt m'
      if r * r = m' then .fin false r e' else .fin false (2 * r + 1) (e' - 1)

/-- 1 / sqrt (R379). -/
def rsqrt : Val → Val
  | .nan => .nan
  | .inf neg => if neg then .nan else .fin false 0 0
  | .fin neg m e =>
    if m = 0 then .inf neg
    else if neg then .nan
    else
      let odd := e % 2 = 1
      let m' := if odd then 2 * m else m
      let h := (if odd then e - 1 else e) / 2
      let t := 2 ^ 256 / m'
      let r := isqrt t
      if r * r * m' = 2 ^ 256 then .fin false r (-128 - h) else .fin false (2 * r + 1) (-129 - h)

/-- FRND (R378): an integral value of the same format. -/
def FFmt.integral (f : FFmt) (rnd x : Nat) : Nat :=
  match f.decode x with
  | .nan => f.nanBits
  | .inf _ => x
  | .fin neg m e => if 0 ≤ e then x else f.round 0 false (.fin neg (roundAt rnd neg m e 0) 0)

/-- Multiplication by a power of two (R378). -/
def scale (n : Int) : Val → Val
  | .fin neg m e => .fin neg m (if m = 0 then e else e + n)
  | v => v

/-! ## Comparison (R330, R375 to R377) -/

/-- Order of bit patterns that are no NaN, with -0 below +0 (R375). -/
def FFmt.key (f : FFmt) (x : Nat) : Int := if f.signBit ≤ x then -((x - f.signBit : Nat) : Int) - 1 else x
def FFmt.isNan (f : FFmt) (x : Nat) : Bool := f.decode x == .nan
/-- FMIN and FMAX (R375). -/
def FFmt.minmax (f : FFmt) (isMax : Bool) (a b : Nat) : Nat :=
  match f.isNan a, f.isNan b with
  | true, true => f.nanBits
  | true, false => b
  | false, true => a
  | false, false => if isMax then (if f.key a < f.key b then b else a) else (if f.key b < f.key a then b else a)

/-- The float conditions of R330. -/
def fcond (sel a b : Nat) : Bool :=
  let nan := f32.isNan a || f32.isNan b
  -- −0 equals +0
  let key := fun x => if x = 0x80000000 then (0 : Int) else if 0x80000000 ≤ x then -((x - 0x80000000 : Nat) : Int) else x
  match sel with
  | 0 => !nan && key a == key b
  | 1 => nan || key a != key b
  | 2 => !nan && decide (key a < key b)
  | 3 => !nan && decide (key a ≤ key b)
  | 4 => !nan && decide (key b < key a)
  | 5 => !nan && decide (key b ≤ key a)
  | 10 => !nan
  | 11 => nan
  | _ => false

/-- The class of an FP32 bit pattern, as a bit number (R377). -/
def fclass (x : Nat) : Nat :=
  let neg := 0x80000000 ≤ x
  let e := x / 2 ^ 23 % 256
  let m := x % 2 ^ 23
  if e = 255 then (if m = 0 then (if neg then 0 else 7) else if m / 2 ^ 22 = 0 then 8 else 9)
  else if e = 0 then (if m = 0 then (if neg then 3 else 4) else if neg then 2 else 5)
  else if neg then 1 else 6

/-! ## Transcendentals (R245, R379)

Fixed-point numbers in units of 2^-640. Each function is computed with an error far below 2^-480; where rounding the two ends
of that bracket gives one result, it is the correctly rounded one. Where the ends would differ the result is a free value of
the function and its argument (log 15), which no argument is known to reach. -/

def fp : Nat := 640
def fpOne : Int := 2 ^ 640

/-- x * y of two fixed-point numbers, rounded down. -/
def fmulx (x y : Int) : Int := x * y / fpOne
/-- A fixed-point value rounded to FP32 over its bracket. -/
def bracket (fn x : Nat) (y : Int) : Nat :=
  let r := fun (z : Int) => f32.round 0 false (.fin (z < 0) z.natAbs (-640))
  if r (y - 2 ^ 160) = r (y + 2 ^ 160) then r y else Config.transcendental fn x

/-- Sum of n terms t_0 = t, t_(k+1) = step k t_k. -/
def series (step : Nat → Int → Int) : Nat → Nat → Int → Int
  | 0, _, _ => 0
  | n + 1, k, t => t + series step n (k + 1) (step k t)

/-- e^y for 0 ≤ y < 1. -/
def expSmall (y : Int) : Int := series (fun k t => fmulx t y / (k + 1 : Nat)) 160 0 fpOne
/-- Sum of z^(2k+1) / (2k+1), that is atanh z, or atan z with alternating signs. -/
def oddSeries (alt : Bool) (n : Nat) (z : Int) : Int :=
  let z2 := fmulx z z
  (List.range n).reverse.foldl (fun (a : Int) k =>
    fpOne / (2 * k + 1 : Nat) + (if alt then -(fmulx a z2) else fmulx a z2)) 0 |> fmulx z
/-- ln 2 = 2 atanh (1/3), and pi = 16 atan (1/5) - 4 atan (1/239). -/
def ln2 : Int := 2 * oddSeries false 210 (fpOne / 3)
def pi : Int := 16 * oddSeries true 150 (fpOne / 5) - 4 * oddSeries true 60 (fpOne / 239)

/-- The fixed-point value of m * 2^e, rounded down. -/
def toFix (neg : Bool) (m : Nat) (e : Int) : Int :=
  let k := e + 640
  let x : Int := if 0 ≤ k then (m * 2 ^ k.toNat : Nat) else (m / 2 ^ (-k).toNat : Nat)
  if neg then -x else x

/-- e^y = 2^n * f with 1 ≤ f < 2. -/
def expParts (y : Int) : Int × Int :=
  let n := y / ln2
  (n, expSmall (y - n * ln2))
/-- A fixed-point value times 2^n. -/
def shiftFix (x n : Int) : Int := if 0 ≤ n then x * 2 ^ n.toNat else x / 2 ^ (-n).toNat

/-- FEXP2. -/
def exp2 (x : Nat) : Nat :=
  match f32.decode x with
  | .nan => f32.nanBits
  | .inf neg => if neg then 0 else 0x7F800000
  | .fin neg m e =>
    let y := toFix neg m e
    let n := y / fpOne
    let f := y - n * fpOne
    if 128 * fpOne ≤ y then 0x7F800000
    else if y ≤ -150 * fpOne then 0
    else if f = 0 then f32.round 0 false (.fin false 1 n)
    else bracket 0 x (shiftFix (expSmall (fmulx f ln2)) n)

/-- log2 x = E + ln u / ln 2 with u in [3/4, 3/2). -/
def log2 (x : Nat) : Nat :=
  match f32.decode x with
  | .nan => f32.nanBits
  | .inf neg => if neg then f32.nanBits else 0x7F800000
  | .fin neg m e =>
    if m = 0 then 0xFF800000
    else if neg then f32.nanBits
    else
      let k := Nat.log2 m
      if m = 2 ^ k then f32.round 0 false (ofInt (e + k))
      else
        let up : Bool := decide (3 * 2 ^ k ≤ 2 * m)
        let d : Nat := 2 ^ (if up then k + 1 else k)
        let z := ((m : Int) - d) * fpOne / (m + d : Nat)
        let ln := 2 * oddSeries false 150 z
        bracket 1 x ((e + k + (if up then 1 else 0)) * fpOne + ln * fpOne / ln2)

/-- Sine and cosine of |r| < 1. -/
def sinSmall (r : Int) : Int := let r2 := fmulx r r; series (fun k t => -(fmulx t r2) / ((2 * k + 2) * (2 * k + 3) : Nat)) 80 0 r
def cosSmall (r : Int) : Int := let r2 := fmulx r r; series (fun k t => -(fmulx t r2) / ((2 * k + 1) * (2 * k + 2) : Nat)) 80 0 fpOne
/-- The multiple of pi / 2 nearest to a, and the rest. -/
def reduce (a : Int) : Int × Int :=
  let n := (4 * a + pi) / (2 * pi)
  (n, a - n * pi / 2)
/-- FSIN (`quarter` 0) and FCOS (`quarter` 1). -/
def trig (quarter : Nat) (x : Nat) : Nat :=
  match f32.decode x with
  | .nan | .inf _ => f32.nanBits
  | .fin neg m e =>
    if m = 0 then (if quarter = 1 then 0x3F800000 else x)
    else
      let (n, r) := reduce (toFix neg m e)
      bracket (2 + quarter) x (match ((n + quarter) % 4).toNat with
        | 0 => sinSmall r
        | 1 => cosSmall r
        | 2 => -(sinSmall r)
        | _ => -(cosSmall r))

/-- FTANH: (E - 1) / (E + 1) with E = e^(2a). -/
def tanh (x : Nat) : Nat :=
  match f32.decode x with
  | .nan => f32.nanBits
  | .inf neg => if neg then 0xBF800000 else 0x3F800000
  | .fin neg m e =>
    let a := toFix false m e
    if m = 0 then x
    else if 91 * fpOne ≤ 10 * a then (if neg then 0xBF800000 else 0x3F800000)
    else
      let (n, f) := expParts (2 * a)
      let t := shiftFix f n
      let y := (t - fpOne) * fpOne / (t + fpOne)
      bracket 4 x (if neg then -y else y)

/-! ## Instructions on FP32 and BF16 bit patterns -/

def FFmt.fadd (f : FFmt) (rnd : Nat) (sat : Bool) (a b : Nat) : Nat := f.round rnd sat (add rnd (f.decode a) (f.decode b))
def FFmt.fsub (f : FFmt) (rnd : Nat) (sat : Bool) (a b : Nat) : Nat :=
  f.round rnd sat (add rnd (f.decode a) (f.decode b).negate)
def FFmt.fmul (f : FFmt) (rnd : Nat) (sat : Bool) (a b : Nat) : Nat := f.round rnd sat (mul (f.decode a) (f.decode b))
def FFmt.ffma (f : FFmt) (rnd : Nat) (sat : Bool) (a b c : Nat) : Nat :=
  f.round rnd sat (add rnd (mul (f.decode a) (f.decode b)) (f.decode c))

/-- The float operations of ATOMF (R334, R394): SUBOP 0 adds with RoundEven, 1 and 2 are FMIN and FMAX. -/
def atomF (op old x : Nat) : Nat :=
  match op with
  | 0 => f32.fadd 0 false old x
  | 1 => f32.minmax false old x
  | _ => f32.minmax true old x

/-! ## Conversion (R239, R332, R381 to R383) -/

/-- A float format by its code of R332. -/
def ofCode (c : Nat) : Option FFmt :=
  match c with
  | 0 => some bf16
  | 1 => some f16
  | 2 => some e4m3
  | 3 => some e5m2
  | 9 => some f32
  | _ => none
/-- The value of a bit pattern in a format of R332 that is no 4-bit format. -/
def decodeCode (c x : Nat) : Val :=
  match ofCode c with
  | some f => f.decode x
  | none => if c = 4 then ofInt (toSigned 8 (x % 256)) else if c = 11 then ofInt (toSigned 32 x) else ofInt x
/-- A value rounded to a format of R332. -/
def encodeCode (c rnd : Nat) (sat : Bool) (v : Val) : Nat :=
  match ofCode c with
  | some f => f.round rnd sat v
  | none =>
    if c = 4 then int8 rnd v
    else if c = 11 then wrap 32 (roundInt rnd (-(2 ^ 31)) (2 ^ 31 - 1) v)
    else (roundInt rnd 0 (2 ^ 32 - 1) v).toNat
/-- Bits of a format of R332. -/
def codeBits (c : Nat) : Nat :=
  match c with
  | 0 | 1 => 16
  | 2 | 3 | 4 | 10 => 8
  | 5 | 6 | 7 | 8 => 4
  | _ => 32

/-! ## The 4-bit family (R231 to R234) -/

/-- Eight times the magnitudes of the codes 0 to 7 of a type (R232); U4 is separate. -/
def mags (type : Nat) : List Nat :=
  match type with
  | 1 => [0, 4, 8, 12, 16, 24, 32, 48]
  | 2 => [0, 1, 2, 4, 8, 16, 32, 64]
  | _ => [0, 8, 16, 24, 32, 48, 64, 96]
/-- The value of a code under a scale byte (R231). -/
def decode4 (scaleByte code : Nat) : Val :=
  let e : Int := (scaleByte % 64 : Nat) - 32
  match scaleByte / 64 % 4 with
  | 0 => let z := toSigned 4 (code % 16); .fin (z < 0) z.natAbs e
  | t => .fin (code / 8 % 2 == 1) ((mags t).getD (code % 8) 0) (e - 3)

/-- The code of a value in units of its block scale, under RoundEven or RoundOdd (R234 step 2). -/
def encode4 (type rnd : Nat) (v : Val) : Nat :=
  match type, v with
  | _, .nan => 0
  | 0, v => wrap 4 (roundInt rnd (-8) 7 v)
  | t, .inf neg => let _ := t; if neg then 15 else 7
  | t, .fin neg m e =>
    -- position of m * 2^e among the magnitudes, in units of 2^q at most an eighth
    let q := min e (-4)
    let x := m * 2 ^ (e - q).toNat
    let g := fun (i : Nat) => (mags t).getD i 0 * 2 ^ (-3 - q).toNat
    let i := ((List.range 8).filter (fun i => g i ≤ x)).length - 1
    let k := if x = g i ∨ i = 7 then i
      else if rnd = 1 then (if i % 2 = 1 then i else i + 1)
      else if 2 * x < g i + g (i + 1) then i
      else if g i + g (i + 1) < 2 * x then i + 1
      else if i % 2 = 0 then i else i + 1
    if k = 0 then 0 else if neg then k + 8 else k

/-- Whether |v| ≤ c * 2^k; an infinity is above every bound. -/
def leScaled (v : Val) (c : Nat) (k : Int) : Bool :=
  match v with
  | .nan => true
  | .inf _ => false
  | .fin _ m e => let q := min e k; decide (m * 2 ^ (e - q).toNat ≤ c * 2 ^ (k - q).toNat)
def isZeroOrNan : Val → Bool
  | .nan => true
  | .inf _ => false
  | .fin _ m _ => m == 0
/-- Cmax (R234). -/
def cmax (type : Nat) : Nat := match type with | 0 => 7 | 1 => 6 | 2 => 8 | _ => 12
/-- The scale exponent that the rule of R234 step 1 chooses. -/
def chooseE (type : Nat) (xs : List Val) : Nat :=
  if xs.all isZeroOrNan then 32
  else ((List.range 64).find? (fun (e : Nat) => xs.all (fun v => leScaled v (cmax type) ((e : Int) - 32)))).getD 63
/-- Narrowing a block (R234): the codes and the scale byte. -/
def narrowBlock (type rnd : Nat) (given : Option Nat) (xs : List Val) : List Nat × Nat :=
  let e := given.getD (chooseE type xs)
  (xs.map (fun v => encode4 type rnd (scale (32 - (e : Int)) v)), type * 64 + e)

/-! ## The AX96 accumulator (R240 to R242) -/

/-- ToAX96: the multiple of 2^anchor, and whether the product was inexact; `none` for a NaN or an infinity. -/
def toAX96 (p : Val) (anchor : Int) : Option (Int × Bool) :=
  match p with
  | .fin neg m e =>
    let n : Int := roundAt 1 neg m e anchor
    some (if neg then -n else n, e < anchor && m % 2 ^ (anchor - e).toNat != 0)
  | _ => none
/-- The value of an entry (R240). -/
def entryVal (a : W96) (anchor : Int) (h : Nat) : Val := .fin (a.toInt < 0) a.toInt.natAbs (anchor - h)
/-- DrainAX96 (R242), by the code of F. -/
def drain (fmt : Nat) (sat nan : Bool) (a : W96) (anchor : Int) (h : Nat) : Nat :=
  encodeCode fmt 0 sat (if nan then .nan else entryVal a anchor h)

end Sys2Proof.Machine.Flt
end

