-- ==== Sys2Proof/Machine/Control.lean ====
section
/-! DEFINITION. Predicate, control and group instructions, opcodes 0x100 to 0x115 without HALT (R355 to R371). -/
namespace Sys2Proof.Machine

/-! ## Predicates (R355) -/

def predOp2 (u : Uses) (f : VForm) (alu : Byte → Byte → Byte) : LaneOp :=
  { uses := u,
    act := fun o c t => c.wr32 t f.d ((alu ((o.src32 t f.a).truncate 8) ((o.src32 t f.b).truncate 8)).zeroExtend 32) }
def predOp1 (u : Uses) (f : VForm) (alu : Byte → Byte) : LaneOp :=
  { uses := u, act := fun o c t => c.wr32 t f.d ((alu ((o.src32 t f.a).truncate 8)).zeroExtend 32) }

/-- PAND (R355). -/
def execPand (f : VForm) (s : State) : Host.Outcome State Fault Refusal := (predOp2 (Instr.pand f).uses f (· &&& ·)).exec s
/-- POR (R355). -/
def execPor (f : VForm) (s : State) : Host.Outcome State Fault Refusal := (predOp2 (Instr.por f).uses f (· ||| ·)).exec s
/-- PXOR (R355). -/
def execPxor (f : VForm) (s : State) : Host.Outcome State Fault Refusal := (predOp2 (Instr.pxor f).uses f (· ^^^ ·)).exec s
/-- PNOT (R355). -/
def execPnot (f : VForm) (s : State) : Host.Outcome State Fault Refusal := (predOp1 (Instr.pnot f).uses f (fun a => ~~~a)).exec s
/-- PMOV (R355). -/
def execPmov (f : VForm) (s : State) : Host.Outcome State Fault Refusal := (predOp1 (Instr.pmov f).uses f (fun a => a)).exec s
/-- PANY (R355). -/
def execPany (f : VForm) (s : State) : Host.Outcome State Fault Refusal :=
  (predOp2 (Instr.pany f).uses f (fun a b => testByte (a &&& b != 0))).exec s
/-- PALL (R355). -/
def execPall (f : VForm) (s : State) : Host.Outcome State Fault Refusal :=
  (predOp2 (Instr.pall f).uses f (fun a b => testByte (a &&& b == b))).exec s

/-! ## Branches (R26, R307, R315, R317, R326) -/

/-- The target of a B-format branch in the line of `pc` (R326). -/
def BForm.target (f : BForm) (pc : Addr) : Nat :=
  (((lineOf pc + f.tslot.toNat : Nat) + 64 * f.lofs.toInt : Int) % vaMod).toNat

/-- A taken branch: the thread stands at the target, and its signature takes the address (R307). -/
def State.take (s : State) (tid target : Nat) : State :=
  s.updThread tid (fun t => { t with pc := BitVec.ofNat 56 target, pastEnd := false,
                                     sig := rol64 t.sig 7 ^^^ BitVec.ofNat 64 target })

/-- A branch whose target each lane computes; `checked` when the target's TGT bit is checked (R317), `link` what a lane also
writes. A target whose page is absent suspends the thread at the branch, and one in host memory is fetched first (R43). -/
def branchOp (u : Uses) (target : State → Nat → Nat) (checked : Bool) (link : State → Nat → State := fun s _ => s) : LaneOp :=
  let find := fun (s : State) (t : Nat) =>
    let a := target s t
    if checked then s.enter (coreOf (gidOf t)) (s.spaceOf t) s.cur.pc.toNat a
    else if a % 64 ≥ 5 then some (.trap { cause := .badTarget, i3 := BitVec.ofNat 64 a }) else none
  { uses := u,
    jumps := true,
    block := fun s t =>
      match find s t with
      | some .wait => some (.page (target s t))
      | _ => if checked && decide (target s t % 64 < 5) then s.lineWait t (target s t) else none,
    cause := fun s t => match find s t with | some (.trap x) => some x | _ => none,
    act := fun o c t => match find o t with
      | some .bad => c.consumeAt t
      | _ => (link c t).take t (target o t) }

/-- BRANCH records of a branch (R306, R307): for selected groups, and in a third signature run for every group of a workgroup
that disagreed. -/
def State.traceBranch (s : State) (op : LaneOp) (target : State → Nat → Nat) (before : State) : State :=
  let went := fun (t : Nat) => (s.thread t).retired == (before.thread t).retired + 1
  (before.cur.lanes.map gidOf).eraseDups.foldl (fun s g =>
    let mine := before.cur.lanes.filter (fun t => gidOf t == g && went t)
    let taken := mine.filter (fun t => op.lane before t == .act)
    let body := toLE 8 before.cur.pc.toNat ++ toLE 8 (match taken with | t :: _ => target before t | [] => 0) ++ toLE 8 (maskOf taken)
    let l := s.launch (s.group g).launch
    if mine = [] then s
    else if s.isSelected g then s.traceGroup g 3 body
    else if l.sigRun = 3 ∧ l.sigDiff.contains (l.record.inst (s.group g) l.record.wgLevel) then
      s.trace l.space (coreOf g) (g % 512) 3 body
    else s) s

/-- Runs a branch, with the fault entries of absent target pages (R87) and its trace. -/
def State.branch (s : State) (op : LaneOp) (target : State → Nat → Nat) : Host.Outcome State Fault Refusal :=
  .next (((op.run s).faultPages 8 s.cur.lanes).traceBranch op target s)

/-- BRA (R356). -/
def execBra (f : BForm) (s : State) : Host.Outcome State Fault Refusal :=
  let target := fun (s : State) (_ : Nat) => BForm.target f s.cur.pc
  s.branch (branchOp (Instr.bra f).uses target true) target
/-- BRX (R357): bits [63:56] of the operand are ignored. -/
def execBrx (f : BForm) (s : State) : Host.Outcome State Fault Refusal :=
  let target := fun (s : State) (t : Nat) => (s.src64 t f.opnd).toNat % vaMod
  s.branch (branchOp (Instr.brx f).uses target true) target
/-- CALL (R358): the next address goes to vN and vN+1. -/
def execCall (f : BForm) (s : State) : Host.Outcome State Fault Refusal :=
  let target := fun (s : State) (_ : Nat) => BForm.target f s.cur.pc
  s.branch (branchOp (Instr.call f).uses target true
    (fun c t => c.wr64 t f.opnd ((nextAddr c.cur.pc).zeroExtend 64))) target
/-- RET (R358): no TGT check. -/
def execRet (f : BForm) (s : State) : Host.Outcome State Fault Refusal :=
  let target := fun (s : State) (t : Nat) => (s.src64 t f.opnd).toNat % vaMod
  s.branch (branchOp (Instr.ret f).uses target false) target

/-! ## EXIT (R359) -/

/-- The threads that have not exited of a group's level-k instance. -/
def State.instThreads (s : State) (gid k : Nat) : List Nat :=
  let g := s.group gid
  let r := (s.launch g.launch).record
  let i := r.inst g k
  (s.groups.filter (fun e => e.2.launch == g.launch && r.inst e.2 k == i)).flatMap (fun e => s.live e.1)
/-- Phases that complete when a thread arrives or exits (R362): P rises while every thread that has not exited of the instance has
arrived more often, which takes it to the fewest arrivals of them. -/
def State.passPhases (s : State) (gid k : Nat) : State :=
  match (s.instThreads gid k).map (fun t => (s.thread t).arrivals.getD k 0) with
  | [] => s
  | c :: cs => { s with bars := s.bars.put (s.barKey gid k) (max (s.bars.getD (s.barKey gid k) 0) (cs.foldl min c)) }

/-- A thread exits: its fills are left to complete, with nothing delivered to it, its rows are gated, its packet, its claim and its
waiting reports go, and every barrier stops counting it (R108, R165, R166, R288, R359, R362). A COPY_FAULT that it had not taken
goes to another thread of the workgroup by way of its collective (R277). -/
def State.exitThread (s : State) (tid : Nat) : State :=
  let gid := gidOf tid
  let t := s.thread tid
  let s := match t.claim with | some c => s.release (s.spaceOf tid) c | none => s
  let top := (s.launchOf tid).record.topResident
  let s := { s with fills := Tab.mapVals s.fills (fun f => if f.tid = tid then { f with gone := true, acq := false } else f),
                    vreg := Tab.keep s.vreg (fun k _ => k / 256 != tid), preg := Tab.keep s.preg (fun k _ => k / 16 != tid),
                    colls := Tab.mapVals s.colls (fun c => c.redirect tid t.reports) }
  -- the token of a copy that it supplied ends with it (R280)
  let s := s.colls.foldl (fun s e => (e.2.slices.filter (fun (x : CSlice) => x.tid == tid)).foldl (fun s x => s.disarm gid x.tok) s) s
  let s := { s with colls := Tab.mapVals s.colls (fun c =>
    { c with slices := c.slices.map (fun (x : CSlice) => if x.tid = tid then { x with tok := none } else x) }) }
  let s := s.updThread tid (fun t => { t with st := .exited, packet := none, claim := none, reports := [], inHandler := false })
  ((upTo (top + 1)).drop 2).foldl (fun s k => s.passPhases gid k) s

/-- EXIT (R359). -/
def execExitT (f : VForm) (s : State) : Host.Outcome State Fault Refusal :=
  let op : LaneOp :=
    { uses := (Instr.exitT f).uses,
      jumps := true,
      block := fun s t => if s.storesPending t then some .stores else none,
      act := fun _ c t => c.exitThread t }
  .next ((s.cur.lanes.map gidOf).eraseDups.foldl (fun c g => c.endGroup g) (op.run s))

/-! ## Group-collective instructions (R143, R158, R164, R361) -/

/-- A group-collective instruction: sources read in every acting lane, causes and waits of a thread, registers of other
threads that the acting threads read with the position of the source, and the effect on a group. -/
structure GroupOp where
  uses : Uses
  own : State → Nat → Bool := fun _ _ => false
  block : State → Nat → Option Wait := fun _ _ => none
  others : State → Nat → List Nat → List RegName := fun _ _ _ => []
  act : State → Nat → List Nat → State

/-- Whether a thread stands at a collective: it is ready there or converging, and has no report to take first (R277, R363). -/
def State.stands (s : State) (pc : Addr) (tid : Nat) : Bool :=
  let t := s.thread tid
  t.pc == pc && (t.reports == [] || t.inHandler) && (match t.st with | .ready => true | .waiting (.converge _) => true | _ => false)

/-- The collective in one group: it waits until every thread that has not exited stands there and all of them issue together; then registers that block,
stores that must resolve, causes, and the effect. -/
def GroupOp.group (op : GroupOp) (s : State) (gid : Nat) : State :=
  let pc := s.cur.pc
  let ps := s.live gid
  let converge := fun (s : State) (ts : List Nat) (rs : List RegName) => ts.foldl (fun s t => s.toWait t (.converge rs)) s
  if !ps.all (fun t => s.stands pc t && s.cur.lanes.contains t) then converge s (s.cur.lanes.filter (fun t => gidOf t == gid)) []
  else
    let guards := ps.flatMap (fun t => (regsOf t (.p op.uses.h.guard) 1).filter s.isEmpty)
    let acting := ps.filter (s.guardOn op.uses.h)
    let ebA := op.uses.h.eb.getLsbD 0
    let regs := acting.flatMap (s.blocking op.uses)
    let more := (op.others s gid acting).filter s.isEmpty
    let blocked := guards ++ regs ++ (if ebA then [] else more)
    if blocked ≠ [] then converge s ps blocked
    else
      let cause := fun (t : Nat) =>
        firstCause (s.unbound op.uses t)
          ((s.emptyRead op.uses t).or (if ebA && more != [] then
            (op.uses.src.head?.map (fun x => { cause := .emptyRead, i2 := BitVec.ofNat 64 (256 * encOperand x.o) })) else none))
      let waits := ps.filterMap (fun t => (op.block s t).map (fun w => (t, w)))
      -- every acting thread traps with its own cause, or with that of the lowest lane that has one (R282)
      let lowest := acting.findSome? cause
      let traps := ps.filterMap (fun t =>
        (firstCause (if acting.contains t then (cause t).or lowest else none) (s.entryTrap t)).map (fun x => (t, x)))
      if traps = [] ∧ waits ≠ [] then waits.foldl (fun s x => s.toWait x.1 x.2) (converge s ps [])
      else
        match traps with
        | _ :: _ => (ps.foldl (fun s t => s.updThread t (fun t => { t with st := .ready })) s).trapAll pc traps
        | [] =>
          let s := ps.foldl (fun s t => s.updThread t (fun t => { t with st := .ready })) s
          let s := acting.foldl (fun c t =>
            if s.beyond op.uses t then c.updThread t (fun x => { x with paramBound := true }) else c) s
          let s := (op.act s gid acting).traceIssue acting (ps.filter (fun t => !acting.contains t))
          ps.foldl (fun s t => s.retire true false t) s

/-- Runs a collective in the issue group: each group acts separately (R139, R361). -/
def GroupOp.exec (op : GroupOp) (s : State) : Host.Outcome State Fault Refusal :=
  let own := s.cur.lanes.filter (fun t => s.undeclared op.uses t || op.own s t)
  if own ≠ [] then .next (s.trapAll s.cur.pc (own.map (fun t => (t, opTrap .illegalField s.cur.raw))))
  else .next ((s.cur.lanes.map gidOf).eraseDups.foldl (fun c g => if (c.groups.find g).isSome then op.group c g else c) s)

/-- Levels that BAR.LEVEL accepts (R362). -/
def LRec.barOk (r : LRec) (k : Nat) : Bool := k != 0 && k < r.nlev && k ≤ r.topResident

/-- What a thread does at BAR.LEVEL k, k above 1 (R362, R363): an arrival waits as a release, and one that stands already is not made
again; it acts where its guard passes. -/
def State.barLane (s : State) (h : Header) (tid : Nat) : Lane :=
  let t := s.thread tid
  let g := regsOf tid (.p h.guard) 1
  if g.any s.isEmpty then .drop (.regs g)
  else match (if t.arrived.contains s.cur.pc then none else s.ordWait tid 2) with
    | some w => .drop w
    | none => if s.guardOn h tid then .act else .skip
/-- A thread arrives at BAR.LEVEL k: it counts, and stays there if its guard passes. -/
def State.arriveBar (s : State) (k : Nat) (x : Nat × Lane) : State :=
  let pc := s.cur.pc
  if (s.thread x.1).arrived.contains pc then s
  else s.updThread x.1 (fun t => { t with arrivals := t.arrivals.put k (t.arrivals.getD k 0 + 1),
                                          arrived := if x.2 = .act then pc :: t.arrived else t.arrived })
/-- A thread that has arrived goes on, at once or when the phase of its arrival has passed (R362). -/
def State.passBar (s : State) (k : Nat) (x : Nat × Lane) : State :=
  if x.2 = .act ∧ s.bars.getD (s.barKey (gidOf x.1) k) 0 < (s.thread x.1).arrivals.getD k 0 then s.toWait x.1 (.bar k)
  else (s.updThread x.1 (fun t => { t with arrived := t.arrived.filter (· != s.cur.pc), st := .ready })).retire true false x.1
/-- BAR.LEVEL k, k above 1, in an issue group (R362): the lanes that do not wait arrive, phases pass, and each waits or goes on. -/
def State.barrier (s : State) (h : Header) (k : Nat) : State :=
  let cl := s.cur.lanes.map (fun t => (t, s.barLane h t))
  let going := cl.filter laneGoes
  let s := cl.foldl State.dropLane s
  let s := going.foldl (fun c x => c.arriveBar k x) s
  let s := ((going.map (fun x => gidOf x.1)).eraseDups).foldl (fun c g => c.passPhases g k) s
  let s := s.traceIssue ((going.filter laneIssues).map (·.1)) ((going.filter (fun x => x.2 == .skip)).map (·.1))
  going.foldl (fun c x => c.passBar k x) s

/-- BAR.LEVEL (R362). -/
def execBar (f : IForm) (s : State) : Host.Outcome State Fault Refusal :=
  let k := f.imm.toNat
  let own := fun (s : State) (t : Nat) => !(s.launchOf t).record.barOk k
  if k = 1 then
    GroupOp.exec { uses := (Instr.bar f).uses, own := own, block := fun s t => s.ordWait t 2,
                    act := fun s gid _ => { s with bars := s.bars.put (s.barKey gid 1) (s.bars.getD (s.barKey gid 1) 0 + 1) } } s
  else
    let bad := s.cur.lanes.filter (fun t => s.undeclared (Instr.bar f).uses t || own s t)
    let unmarked := s.cur.lanes.filterMap (fun t => (s.entryTrap t).map (fun x => (t, x)))
    if bad ≠ [] then .next (s.trapAll s.cur.pc (bad.map (fun t => (t, opTrap .illegalField s.cur.raw))))
    else if unmarked ≠ [] then .next (s.trapAll s.cur.pc unmarked)
    else .next (s.barrier f.h k)

/-- ELECT (R364). -/
def execElect (f : VForm) (s : State) : Host.Outcome State Fault Refusal :=
  GroupOp.exec
    { uses := (Instr.elect f).uses,
      act := fun s _ ts => ts.foldl (fun c t => c.wrTest t f.d (ts.head? == some t)) s } s

/-- VOTE (R365). -/
def execVote (f : VForm) (s : State) : Host.Outcome State Fault Refusal :=
  GroupOp.exec
    { uses := (Instr.vote f).uses,
      act := fun s _ ts =>
        let b := fun (t : Nat) => (s.src32 t f.a).getLsbD 0
        let r := match f.sel.toNat with
          | 0 => ts.any b
          | 1 => ts.all b
          | _ => ts.all (fun t => some (s.src32 t f.a) == ts.head?.map (fun t => s.src32 t f.a))
        if f.sel = 2 then
          match ts.getLast? with
          | some t => s.wr64 t f.d (BitVec.ofNat 64 (maskOf (ts.filter b)))
          | none => s
        else ts.foldl (fun c t => c.wrTest t f.d r) s } s

/-- Source index of SHFL (R366). -/
def shflIndex (mode i b : Nat) : Int :=
  match mode with
  | 0 => b
  | 1 => (i : Int) - b
  | 2 => i + b
  | _ => (i ^^^ b : Nat)
/-- The thread that acting thread `tid` reads: itself when the index is out of range. -/
def State.shflSource (s : State) (mode tid b : Nat) : Nat :=
  let j := shflIndex mode (level0 tid) b
  if j < 0 ∨ (s.group (gidOf tid)).width ≤ j then tid else gidOf tid * 64 + j.toNat
/-- SHFL with index B of a thread (R366). -/
def shflOp (u : Uses) (mode : Nat) (d a : Operand) (b : State → Nat → Nat) : GroupOp :=
  { uses := u,
    others := fun s _ ts => ts.flatMap (fun t => regsOf (s.shflSource mode t (b s t)) a 1),
    act := fun s _ ts => ts.foldl (fun c t =>
      let j := s.shflSource mode t (b s t)
      c.wr32 t d (if (s.thread j).st = .exited then 0 else s.src32 j a)) s }
/-- SHFL (R366). -/
def execShfl (f : VForm) (s : State) : Host.Outcome State Fault Refusal :=
  (shflOp (Instr.shfl f).uses f.sel.toNat f.d f.a (fun s t => (s.src32 t f.b).toNat)).exec s
/-- SHFL, immediate form (R366). -/
def execShflI (f : IForm) (s : State) : Host.Outcome State Fault Refusal :=
  (shflOp (Instr.shflI f).uses f.sel.toNat f.d f.a (fun _ _ => f.imm.toNat)).exec s

/-- Identity and operation of GREDUCE (R367). -/
def reduceId (sel : Nat) : Nat :=
  match sel with
  | 1 => 0x7FFFFFFF | 2 => 0x80000000 | 3 => 0xFFFFFFFF | 5 => 0xFFFFFFFF | 8 => 0x80000000 | 9 => 0x7F800000 | 10 => 0xFF800000
  | _ => 0
def reduceOp (sel a b : Nat) : Nat :=
  match sel with
  | 0 => (a + b) % 2 ^ 32
  | 1 => if toSigned 32 b < toSigned 32 a then b else a
  | 2 => if toSigned 32 a < toSigned 32 b then b else a
  | 3 => min a b
  | 4 => max a b
  | 5 => a &&& b
  | 6 => a ||| b
  | 7 => a ^^^ b
  | 8 => Flt.f32.fadd 0 false a b
  | 9 => Flt.f32.minmax false a b
  | _ => Flt.f32.minmax true a b
/-- One level of the fixed tree: neighbours combine (R246). -/
def reducePairs (op : Nat → Nat → Nat) : List Nat → List Nat
  | a :: b :: r => op a b :: reducePairs op r
  | l => l
/-- The fixed tree over 2^n values (R246). -/
def reduceTree (op : Nat → Nat → Nat) : Nat → List Nat → List Nat
  | 0, l => l
  | n + 1, l => reduceTree op n (reducePairs op l)
/-- GREDUCE (R367). -/
def execGreduce (f : VForm) (s : State) : Host.Outcome State Fault Refusal :=
  let sel := f.sel.toNat
  GroupOp.exec
    { uses := (Instr.greduce f).uses,
      act := fun s gid ts =>
        let w := (s.group gid).width
        let xs := (upTo w).map (fun i => if ts.contains (gid * 64 + i) then (s.src32 (gid * 64 + i) f.a).toNat else reduceId sel)
        let r := ((reduceTree (reduceOp sel) (Nat.log2 w) xs).head?).getD 0
        ts.foldl (fun c t => c.wr32 t f.d (BitVec.ofNat 32 r)) s } s

/-! ## Scheduling (R368 to R370) -/

/-- YIELD (R368): the thread stands at its next address, and is ready there 16 cycles of its island clock later. -/
def execYield (f : VForm) (s : State) : Host.Outcome State Fault Refusal :=
  let op : LaneOp := { uses := (Instr.yield f).uses, act := fun _ c _ => c }
  let s' := op.run s
  .next (s.cur.lanes.foldl (fun c t =>
    if op.lane s t == .act && (c.thread t).retired == (s.thread t).retired + 1 then
      c.toWait t (.yield ((c.cycles (coreOf (gidOf t))).toNat + 16)) else c) s')

/-- SLEEP (R369): the thread stays at the SLEEP, suspended until its group's CYCLE has advanced by IMM; SLEEP_WAKE moves it on.
With IMM = 0 it acts as NOP, which is not counted (R354). -/
def execSleep (f : IForm) (s : State) : Host.Outcome State Fault Refusal :=
  LaneOp.exec
    { uses := (Instr.sleep f).uses,
      block := fun s t => if f.imm = 0 then none else some (.sleep ((s.group (gidOf t)).cycle.toNat + f.imm.toNat)),
      counts := f.imm != 0,
      act := fun _ c _ => c } s

/-- NOPRE (R150, R370). -/
def execNopre (f : VForm) (s : State) : Host.Outcome State Fault Refusal :=
  LaneOp.exec
    { uses := (Instr.nopre f).uses,
      act := fun _ c t => c.updGroup (gidOf t) (fun g => if g.hold.isSome then g else { g with hold := some c.cur.pc }) } s
/-- PREOK (R150, R370). -/
def execPreok (f : VForm) (s : State) : Host.Outcome State Fault Refusal :=
  LaneOp.exec { uses := (Instr.preok f).uses, act := fun _ c t => c.updGroup (gidOf t) (fun g => { g with hold := none }) } s

end Sys2Proof.Machine
end

