-- ==== Sys2Proof/Machine/Matrix.lean ====
section
/-! DEFINITION. The Firebox: tile records, planes, accumulators, and the operations queued on a core (R247 to R263). -/
namespace Sys2Proof.Machine

/-! ## Tile records (R247 to R250) -/

/-- A tile record by its fields (R249). -/
structure Tile where
  v : Bool
  blk : Nat
  sparse : Nat
  fmt : Nat
  texp : Int
  kch : Nat
  rows : Nat
  masku : Nat
  scu : Nat
  extu : Nat
  baseu : Nat
  reserved : Bool
  deriving DecidableEq, Repr

/-- Reads a 32-byte record. -/
def tileOf (r : BitVec 256) : Tile :=
  let f := fun (lo n : Nat) => r.toNat / 2 ^ lo % 2 ^ n
  { v := f 255 1 == 1, blk := f 250 2, sparse := f 248 2, fmt := f 244 4, texp := toSigned 8 (f 232 8), kch := f 192 16,
    rows := f 176 10 + 1, masku := f 48 16, scu := f 32 16, extu := f 16 16, baseu := f 0 16,
    reserved := f 252 3 == 0 && f 240 4 == 0 && f 208 24 == 0 && f 186 6 == 0 && f 64 112 == 0 }

/-- Bits of a tile format, and whether it is of the 4-bit family. -/
def fmtBits (fmt : Nat) : Nat := if fmt ≤ 1 then 16 else if fmt ≤ 4 then 8 else 4
def Tile.four (t : Tile) : Bool := t.fmt ≥ 5
/-- Elements in 48 bytes (R250), stored elements per 16 positions, and logical K. -/
def Tile.p (t : Tile) : Nat := 384 / fmtBits t.fmt
def Tile.n (t : Tile) : Nat := match t.sparse with | 0 => 16 | 1 => 8 | _ => 4
def Tile.k (t : Tile) : Nat := t.kch * t.p * 16 / t.n
/-- Block length. -/
def blkLen (blk : Nat) : Nat := 16 * 2 ^ blk
def Tile.l (t : Tile) : Nat := blkLen t.blk
/-- E of a pair of widths (R247). -/
def stepE (a b : Nat) : Nat := match max a b with | 4 => 96 | 8 => 48 | _ => 24
/-- A pair refused by R247. -/
def badPair (a b : Nat) : Bool := (a == 16) != (b == 16)

/-- Spans of data, scales and masks, in bytes from BASE (R250). -/
def Tile.spans (t : Tile) : List (Nat × Nat) :=
  [(0, 48 * t.kch * t.rows)] ++ (if t.four then [(64 * t.scu, 64 * t.scu + t.rows * (t.k / t.l))] else []) ++
  (if t.sparse ≠ 0 then [(64 * t.masku, 64 * t.masku + t.rows * (t.k / 8))] else [])
def apart (a b : Nat × Nat) : Bool := a.2 ≤ b.1 || b.2 ≤ a.1
def pairwise (f : Nat × Nat → Nat × Nat → Bool) : List (Nat × Nat) → Bool
  | [] => true
  | a :: r => r.all (f a) && pairwise f r
/-- What TRES checks of a record itself (R249, R250). -/
def Tile.ok (t : Tile) : Bool :=
  t.v && t.reserved && t.blk ≤ 2 && (t.four || t.blk == 0) && t.sparse ≤ 2 && t.fmt ≤ 8 && 1 ≤ t.kch &&
  (t.sparse != 0 || t.masku == 0) && (t.four || t.scu == 0) && 1 ≤ t.extu && t.extu ≤ 32768 &&
  (!t.four || t.k % t.l == 0) && t.spans.all (fun x => x.2 ≤ 64 * t.extu) && pairwise apart t.spans
/-- The reservation as a range of 64-byte units. -/
def Tile.range (t : Tile) : Nat × Nat := (t.baseu, t.baseu + t.extu)

def State.tile (s : State) (gid n : Nat) : Tile := tileOf (s.getT gid n)

/-! ## The operand buffer -/

def State.opAddr (s : State) (gid off : Nat) : Nat := coreOf gid * 2 ^ 21 + (s.group gid).opBase + off
def State.opByte (s : State) (gid off : Nat) : Nat := (s.opbuf.getD (s.opAddr gid off) 0).toNat
def State.setOpByte (s : State) (gid off b : Nat) : State :=
  { s with opbuf := s.opbuf.putZ 0 (s.opAddr gid off) (BitVec.ofNat 8 b) }
def State.opBytes (s : State) (gid off n : Nat) : Nat := ((upTo n).map (fun i => s.opByte gid (off + i) * 256 ^ i)).sum

/-- Byte and bit of stored element `k` of row `r` (R250). -/
def Tile.place (t : Tile) (r k : Nat) : Nat × Nat :=
  let b := k % t.p * fmtBits t.fmt
  (64 * t.baseu + 48 * (k / t.p * t.rows + r) + b / 8, b % 8)
def State.getCode (s : State) (gid : Nat) (t : Tile) (r k : Nat) : Nat :=
  let (a, b) := t.place r k
  if fmtBits t.fmt = 16 then s.opBytes gid a 2 else s.opByte gid a / 2 ^ b % 2 ^ fmtBits t.fmt
def State.setCode (s : State) (gid : Nat) (t : Tile) (r k x : Nat) : State :=
  let (a, b) := t.place r k
  if fmtBits t.fmt = 16 then (s.setOpByte gid a (x % 256)).setOpByte gid (a + 1) (x / 256 % 256)
  else if fmtBits t.fmt = 8 then s.setOpByte gid a x
  else
    let o := s.opByte gid a
    s.setOpByte gid a (if b = 0 then o / 16 * 16 + x % 16 else o % 16 + x % 16 * 16)
/-- The scale byte of logical element `k` of row `r`, and where it lies. -/
def Tile.scaleAt (t : Tile) (r k : Nat) : Nat := 64 * (t.baseu + t.scu) + r * (t.k / t.l) + k / t.l
/-- The mask of group `g` of row `r`. -/
def State.maskAt (s : State) (gid : Nat) (t : Tile) (r g : Nat) : Nat :=
  s.opBytes gid (64 * (t.baseu + t.masku) + 2 * (r * (t.k / 16) + g)) 2
/-- Set bits below position `i`. -/
def below (mask i : Nat) : Nat := ((upTo i).filter (fun j => mask / 2 ^ j % 2 == 1)).length
/-- The stored element of position `k % 16` under a mask, within its group (R250). -/
def storedPos (n mask k : Nat) : Option Nat :=
  if mask / 2 ^ (k % 16) % 2 = 1 ∧ below mask (k % 16) < n then some (below mask (k % 16)) else none

def zero : Flt.Val := .fin false 0 0
/-- A decoded code, with the scale byte of its block and TEXP (R231, R250). -/
def Tile.value (t : Tile) (scaleByte code : Nat) : Flt.Val :=
  Flt.scale t.texp (if t.four then Flt.decode4 scaleByte code else Flt.decodeCode t.fmt code)
/-- Elem (R250). -/
def State.elem (s : State) (gid : Nat) (t : Tile) (r k : Nat) : Flt.Val :=
  let sb := if t.four then s.opByte gid (t.scaleAt r k) else 0
  if t.sparse = 0 then t.value sb (s.getCode gid t r k)
  else match storedPos t.n (s.maskAt gid t r (k / 16)) k with
    | some j => t.value sb (s.getCode gid t r (k / 16 * t.n + j))
    | none => zero

/-! ## Planes (R251 to R253) -/

/-- The plane that MLOADW fills from a tile (R252). -/
def State.fillPlane (s : State) (gid : Nat) (rec : BitVec 256) (k0 e : Nat) : Plane :=
  let t := tileOf rec
  let first := if t.sparse = 0 then k0 else k0 / 16 * t.n
  let cols := upTo (min 256 t.rows)
  { tag := rec, k0 := k0, e := e,
    codes := cols.flatMap (fun c => (upTo e).map (fun j => (c * 128 + j, s.getCode gid t c (first + j)))),
    masks := if t.sparse = 0 then []
      else cols.flatMap (fun c => (upTo (e / t.n)).map (fun g => (c * 32 + g, s.maskAt gid t c (k0 / 16 + g)))) }
/-- Logical elements of a plane's step: S = 16 E / N (R256). -/
def Plane.span (p : Plane) : Nat := p.e * 16 / (tileOf p.tag).n
/-- W(n, j) (R256): zero beyond the tile's rows; scales and TEXP from the tag. -/
def State.weight (s : State) (gid : Nat) (p : Plane) (c j : Nat) : Flt.Val :=
  let t := tileOf p.tag
  if t.rows ≤ c then zero
  else
    let sb := if t.four then s.opByte gid (t.scaleAt c (p.k0 + j)) else 0
    if t.sparse = 0 then t.value sb (p.codes.getD (c * 128 + j) 0)
    else match storedPos t.n (p.masks.getD (c * 32 + j / 16) 0) j with
      | some i => t.value sb (p.codes.getD (c * 128 + j / 16 * t.n + i) 0)
      | none => zero

/-! ## Accumulators (R241, R254, R261) -/

/-- Adds a product to an entry, with the row checksum (R241, R261). -/
def Acc.add (a : Acc) (row col : Nat) (p : Flt.Val) : Acc :=
  match Flt.toAX96 p a.anchor.toInt with
  | none => { a with nan := true }
  | some (k, inexact) =>
    let old := a.entries.getD (row * 256 + col) 0
    let sum := old.toInt + k
    { a with
      entries := a.entries.putZ 0 (row * 256 + col) (BitVec.ofInt 96 sum),
      sums := a.sums.putZ 0 row (a.sums.getD row 0 + BitVec.ofInt 96 k),
      inexact := a.inexact || inexact,
      ovf := a.ovf || decide (sum < -(2 ^ 95)) || decide (2 ^ 95 ≤ sum) }
/-- The row sum of the entries equals the row's checksum (R261). -/
def Acc.rowOk (a : Acc) (row : Nat) : Bool :=
  (upTo 256).foldl (fun (x : W96) c => x + a.entries.getD (row * 256 + c) 0) 0 == a.sums.getD row 0
/-- Bits [31:0] of the state word (R254). -/
def Acc.word (a : Acc) : Nat :=
  bit a.blank * 2 ^ 31 + bit a.gerr * 2 ^ 27 + bit a.inexact * 2 ^ 26 + bit a.nan * 2 ^ 25 + bit a.ovf * 2 ^ 24 +
  a.h.toNat * 2 ^ 16 + a.anchor.toNat

/-! ## The MMA block (R255) -/

structure Block where
  ak0 : Nat
  rows : Nat
  arow0 : Nat
  anchor : BitVec 16
  h : Nat
  atile : Nat
  accs : List Nat
  gang : List Nat
  rg : Nat
  cg : Nat
  /-- Limits of R255 that concern the block alone. -/
  ok : Bool
  deriving DecidableEq, Repr

/-- Set bits of a byte, rising. -/
def bits8 (x : Nat) : List Nat := (upTo 8).filter (fun i => x / 2 ^ i % 2 == 1)
def blockOf (b : List Byte) : Block :=
  let f := fun (o n : Nat) => fieldLE b o n
  let rows := f 4 2
  let an := toSigned 16 (f 8 2)
  let rg := f 14 1 % 2 + 1
  let cg := f 14 1 / 2 % 4 + 1
  { ak0 := f 0 4, rows := rows, arow0 := f 6 2, anchor := BitVec.ofNat 16 (f 8 2), h := f 10 1, atile := f 11 1 % 16,
    accs := bits8 (f 12 1), gang := bits8 (f 13 1), rg := rg, cg := cg,
    ok := 1 ≤ rows && rows ≤ 1024 && (-320 : Int) ≤ an && an ≤ 191 && [0, 4, 5, 6].contains (f 10 1) && f 11 1 / 16 == 0 &&
      (bits8 (f 12 1)).length == (rows + 127) / 128 && f 14 1 / 8 == 0 &&
      (if f 13 1 = 0 then f 14 1 == 0 else rg * cg == (bits8 (f 13 1)).length) && (b.drop 15).all (· == 0) }

/-- What the accumulators and planes of a group will be when an operation issued now takes effect: BLANK, ANCHOR and H of an
accumulator, and the tags of the active and the shadow plane (R255, R262). -/
structure Ahead where
  accs : List (Nat × (Bool × BitVec 16 × Nat))
  active : Option (BitVec 256 × Nat × Nat)
  shadow : Option (BitVec 256 × Nat × Nat)
  deriving DecidableEq, Repr
def Plane.head (p : Plane) : BitVec 256 × Nat × Nat := (p.tag, p.k0, p.e)
/-- What a group's accumulators and planes are now. -/
def State.standing (s : State) (gid : Nat) : Ahead :=
  { accs := (upTo 8).map (fun k => let a := s.getAcc gid k; (k, (a.blank, a.anchor, a.h.toNat))),
    active := (s.planesA.find gid).map Plane.head, shadow := (s.planesS.find gid).map Plane.head }
/-- Anchor and H of a block agree with the accumulators that it names and that are not blank (R255). -/
def Ahead.agrees (w : Ahead) (b : Block) : Bool :=
  b.accs.all (fun k => w.accs.all (fun x => x.1 != k || x.2.1 || (x.2.2.1 == b.anchor && x.2.2.2 == b.h)))
/-- Whether a member's part of an MMA takes effect on its planes and accumulators (R255, R259): its E and its formats are those of the
issuer, as far as the issuer has them, its own pair has that E, and the activation tile covers the span and the rows. -/
def Ahead.fits (w : Ahead) (b : Block) (t : Tile) (e wfmt : Nat) (afmt : Option Nat) : Bool :=
  match w.active with
  | none => false
  | some (tag, _, el) =>
    let span := el * 16 / (tileOf tag).n
    el == e && (tileOf tag).fmt == wfmt && t.v && t.sparse == 0 && afmt.all (t.fmt == ·) &&
    stepE (fmtBits wfmt) (fmtBits t.fmt) == e && !badPair (fmtBits wfmt) (fmtBits t.fmt) && w.agrees b && b.ak0 % span == 0 &&
    decide (b.ak0 + span ≤ t.k) && decide (b.arow0 + b.rows ≤ t.rows)
/-- What a block leaves of the accumulators it names. -/
def Ahead.after (w : Ahead) (b : Block) : Ahead :=
  { w with accs := w.accs.map (fun x => if b.accs.contains x.1 ∧ x.2.1 then (x.1, (false, b.anchor, b.h)) else x) }
/-- What an operation of a group `by'` leaves of the accumulators and planes of a group. -/
def State.aheadStep (s : State) (gid : Nat) (w : Ahead) (by' : Nat) (op : MatOp) : Ahead :=
  match op with
  | .mloadw rec k0 el => if by' = gid then { w with shadow := some (rec, k0, el) } else w
  | .mswap => if by' = gid then { w with active := w.shadow, shadow := w.active } else w
  | .mzero k => if by' = gid then { w with accs := w.accs.map (fun x => if x.1 = k then (k, (true, 0, 0)) else x) } else w
  | .mma b t g a el wf af =>
    let b := blockOf b
    if g = gid ∧ (s.groups.find a).isSome ∧ w.fits b (tileOf t) el wf af then w.after b else w
  | _ => w
def State.ahead (s : State) (gid : Nat) : Ahead :=
  (s.matq.getD (coreOf gid) []).foldl (fun w e => s.aheadStep gid w (gidOf e.tid) e.op) (s.standing gid)

/-! ## Gangs (R258, R259) -/

/-- The groups of a group's gang, member by member: the peer in each named workgroup of its cluster instance, if it lives. -/
def State.gangPeers (s : State) (gid : Nat) (gang : List Nat) : List (Option Nat) :=
  let g := s.group gid
  let r := (s.launch g.launch).record
  let w := r.wgLevel
  gang.map (fun j => (s.groups.find? (fun e => e.2.launch == g.launch && r.inst e.2 (w + 1) == r.inst g (w + 1) &&
    e.2.level w == j && e.2.gidx == g.gidx)).map (·.1))
/-- Whether a block's gang is allowed for a group (R258). -/
def State.gangOk (s : State) (gid : Nat) (b : Block) : Bool :=
  let g := s.group gid
  let r := (s.launch g.launch).record
  let w := r.wgLevel
  b.gang == [] || (w + 1 < r.nlev && r.domains.getD (w - 1) 3 == 1 && b.gang.all (· < r.exts.getD (w - 1) 0) &&
    b.gang.contains (g.level w))

/-! ## Effects of queued operations -/

/-- One member's part of an MMA (R256, R259): it does nothing and sets GERR in the issuer's accumulators when its peer, or the group
whose tile it streams, has gone, or when its peer's plane or accumulators fail the checks (log 62). -/
def State.runMma (s : State) (issuer : Nat) (block : List Byte) (tile : BitVec 256) (gid actGid e wfmt : Nat) (afmt : Option Nat) : State :=
  let b := blockOf block
  let t := tileOf tile
  let skip := fun (s : State) => b.accs.foldl (fun s k =>
    if (s.groups.find issuer).isSome then s.setAcc issuer k { s.getAcc issuer k with gerr := true } else s) s
  match s.planesA.find gid with
  | none => skip s
  | some p =>
    if (s.groups.find gid).isNone ∨ (s.groups.find actGid).isNone ∨ !(s.standing gid).fits b t e wfmt afmt then skip s
    else
      let s := b.accs.foldl (fun s k =>
        let a := s.getAcc gid k
        if a.blank then s.setAcc gid k { a with blank := false, anchor := b.anchor, h := BitVec.ofNat 8 b.h } else s) s
      (upTo b.rows).foldl (fun s i =>
        let k := b.accs.getD (i / 128) 0
        let xs := (upTo p.span).map (fun j => s.elem actGid t (b.arow0 + i) (b.ak0 + j))
        s.setAcc gid k ((upTo 256).foldl (fun a n =>
          xs.zipIdx.foldl (fun a x => a.add (i % 128) n (Flt.mul x.1 (s.weight gid p n x.2))) a) (s.getAcc gid k))) s

/-- The unnormalised Sylvester transform of one run (R260). -/
def hadamard (xs : List Flt.Val) : List Flt.Val :=
  (upTo xs.length).map (fun i => xs.zipIdx.foldl (fun a x =>
    let odd := ((upTo 6).filter (fun b => (i &&& x.2) / 2 ^ b % 2 == 1)).length % 2 == 1
    Flt.add 0 a (if odd then x.1.negate else x.1)) (Flt.Val.fin false 0 0))
/-- Consecutive runs of `n` elements. -/
def chunks {α : Type} (n : Nat) : Nat → List α → List (List α)
  | 0, _ => []
  | _, [] => []
  | f + 1, l => l.take n :: chunks n f (l.drop n)
/-- Writes the values of a row, encoded in the tile's format, each rounded once (R234, R239, R260). -/
def State.putRow (s : State) (gid : Nat) (t : Tile) (r : Nat) (ys : List Flt.Val) : State :=
  if t.four then
    (chunks t.l (ys.length + 1) ys).zipIdx.foldl (fun s c =>
      let (codes, sb) := Flt.narrowBlock (t.fmt - 5) 0 none c.1
      let s := codes.zipIdx.foldl (fun s x => s.setCode gid t r (c.2 * t.l + x.2) x.1) s
      s.setOpByte gid (t.scaleAt r (c.2 * t.l)) sb) s
  else ys.zipIdx.foldl (fun s y => s.setCode gid t r y.2 (Flt.encodeCode t.fmt 0 false y.1)) s
/-- MHAD (R260). -/
def State.runMhad (s : State) (gid : Nat) (src dst : BitVec 256) (n : Nat) : State :=
  let ts := tileOf src
  let td := tileOf dst
  (upTo ts.rows).foldl (fun s r =>
    let xs := (upTo ts.k).map (fun k => s.elem gid ts r k)
    s.putRow gid td r ((chunks n (xs.length + 1) xs).flatMap hadamard)) s

/-- Bytes of an element that MDRAIN writes (R412). -/
def drainBytes (fmt : Nat) : Nat := Flt.codeBits fmt / 8
/-- What ends a drain before its last row: a row checksum that does not match (R261), or a destination that has gone with its die
(R41). -/
inductive DrainEnd where
  | badRow | lost
  deriving DecidableEq, Repr
/-- The bytes of one row as MDRAIN writes them (R242, R412). -/
def Acc.rowBytes (a : Acc) (r fmt : Nat) (sat : Bool) : List Byte :=
  (upTo 256).flatMap (fun n =>
    toLE (drainBytes fmt) (Flt.drain fmt sat a.nan (a.entries.getD (r * 256 + n) 0) a.anchor.toInt a.h.toNat))
/-- Where row `r` of a drain that begins at row `first` goes (R412). -/
def drainVa (dst first fmt r : Nat) : Nat := dst + drainBytes fmt * 256 * (r - first)
/-- MDRAIN's rows, up to what ends it (R261, R412). -/
def State.runDrain (s : State) (gid k dst first : Nat) (rows : List Nat) (fmt : Nat) (sat ok : Bool) : Option DrainEnd × State :=
  rows.foldl (fun (x : Option DrainEnd × State) r =>
    if x.1.isSome then x
    else
      let a := x.2.getAcc gid k
      let va := drainVa dst first fmt r
      let g := x.2.group gid
      if !(ok && a.rowOk r) then (some .badRow, x.2)
      else if x.2.lostDie (flatPa va) then (some .lost, x.2)
      else (none, (x.2.noteStore g.launch va (flatPa va) 1).storeVa g.space va (a.rowBytes r fmt sat))) (none, s)

/-- A row checksum that does not match (R261): counted in the Soot record, at a place of the model's own by core, since R310 gives it
none (log 63), and consumed by the reading thread. -/
def State.badRow (s : State) (tid : Nat) : State := (s.sootAdd 5 (coreOf (gidOf tid)) 0 1 (2 ^ 64 - 1)).consumeAt tid
/-- Whether an operation with a token waits for earlier accesses of its thread to bytes it writes, or for an acquire (R205). -/
def State.drainWaits (s : State) (e : MatEnt) : Bool :=
  match e.tok, e.op with
  | some _, .mdrain _ dst _ count fmt _ =>
    let inside := fun (k : Nat) => flatPa dst / 32 ≤ k && k < (flatPa dst + 256 * drainBytes fmt * count) / 32
    s.stores.any (fun x => x.2.tid == e.tid && x.1 < e.stamp && inside (s.sectorOf x.2.space x.2.va)) ||
    s.fills.any (fun x => x.2.tid == e.tid && x.1 < e.stamp && (x.2.acq || x.2.sectors.any inside))
  | _, _ => false
/-- Runs a queued operation; `ok` false is a row checksum that does not match (R261). -/
def State.runMat (s : State) (e : MatEnt) (ok : Bool) : State :=
  let gid := gidOf e.tid
  match e.op with
  | .mloadw rec k0 el => { s with planesS := s.planesS.put gid (s.fillPlane gid rec k0 el) }
  | .mswap =>
    let a := s.planesA.find gid
    let b := s.planesS.find gid
    { s with planesA := match b with | some p => s.planesA.put gid p | none => s.planesA.erase gid,
             planesS := match a with | some p => s.planesS.put gid p | none => s.planesS.erase gid }
  | .mma b t g ag el wf af => s.runMma gid b t g ag el wf af
  | .mhad src dst n => s.runMhad gid src dst n
  | .mzero k => s.setAcc gid k {}
  | .mdrain k dst first count fmt sat =>
    let r := s.runDrain gid k dst first ((upTo count).map (first + ·)) fmt sat ok
    match r.1 with
    | some .badRow => r.2.badRow e.tid
    | some .lost => r.2.consumeAt e.tid
    | none => r.2
  | .mread k row col fill =>
    match s.fills.find fill with
    | none => s
    | some f =>
      let a := s.getAcc gid k
      if !(ok && a.rowOk row) then ({ s with fills := s.fills.erase fill }).badRow e.tid
      else ({ s with fills := s.fills.erase fill }).fillRegs f 16
        ((a.entries.getD (row * 256 + col) 0).toNat + a.word * 2 ^ 96)

/-- Whether a queued operation is a part of the MMA that another one belongs to (R259): the same thread's, of the same issue. -/
def MatEnt.partOf (e x : MatEnt) : Bool :=
  match e.op, x.op with
  | .mma .., .mma .. => e.tid == x.tid && e.stamp == x.stamp
  | _, _ => e == x
/-- The parts of an MMA at the heads of the queues that hold one, or `none` while another operation stands before one of them (R262). -/
def State.mmaReady (s : State) (x : MatEnt) : Option (List MatEnt) :=
  let qs := s.matq.filter (fun q => q.2.any (fun e => e.partOf x))
  if qs.all (fun q => q.2.head?.any (fun e => e.partOf x)) then some (qs.flatMap (fun q => q.2.filter (fun e => e.partOf x))) else none
/-- MATRIX_OP_EXECUTE (R262): the oldest queued operation of a core runs and completes; a group whose last thread had exited
then ends. The parts of an MMA take effect together, each in the order of its member's core: its activation rows are read once, and
GERR is set, in the order of the issuer's core too (R259, log 80). A drain with a token comes after what its thread did before it
(R205). `checkOk` false is an error in the rows it reads (R261). -/
def execMatrixOpExecute (core : Nat) (checkOk : Bool) (s : State) : Host.Outcome State Fault Refusal :=
  match s.matq.getD core [] with
  | [] => .next s
  | e :: _ =>
    if s.drainWaits e then .next s
    else match s.mmaReady e with
      | none => .next s
      | some parts =>
        let s := { s with matq := Tab.keep (Tab.mapVals s.matq (fun l => l.filter (fun x => !x.partOf e))) (fun _ l => l != []) }
        let s := parts.foldl (fun s x => (s.runMat x checkOk).disarm (gidOf x.tid) x.tok) s
        .next (s.endGroup (gidOf e.tid))

/-- Queues operations of a thread, with their token (R262, R406). -/
def State.queueMat (s : State) (h : Header) (tid : Nat) (tiles : List Nat) (ops : List (Nat × MatOp)) : State :=
  ops.foldl (fun s x =>
    let s := if h.arm then s.arm tid h.atok.toNat else s
    let tok := if h.arm then some h.atok.toNat else none
    let e : MatEnt := { tid := tid, tok := tok, tiles := tiles, stamp := s.stamp, op := x.2 }
    { s with matq := s.matq.put x.1 (s.matq.getD x.1 [] ++ [e]) }) s
/-- Operations that the queue of a core holds, and whether it is full (R262). -/
def matDepth : Nat := 32
def State.matFull (s : State) (core : Nat) : Bool := matDepth ≤ (s.matq.getD core []).length
/-- A queued matrix operation of the group that names a tile register (R407), on whichever core. -/
def State.tileQueued (s : State) (gid n : Nat) : Bool :=
  s.matq.any (fun q => q.2.any (fun e => gidOf e.tid == gid && e.tiles.contains n))

end Sys2Proof.Machine
end

