-- ==== Sys2Proof/Machine/Copy.lean ====
section
/-! DEFINITION. The Stoker: layout records, barrier objects, collectives with their landings and faults (R264 to R280). -/
namespace Sys2Proof.Machine

/-! ## Barrier objects (R274, R275) -/

structure Barrier where
  bal : Int
  pend : Nat
  per : Nat
  phase : Nat
  scope : Nat
  extra : Bool
  balerr : Bool
  deriving DecidableEq, Repr

def barrierOf (b : List Byte) : Barrier :=
  let f := fun (o n : Nat) => fieldLE b o n
  { bal := toSigned 32 (f 0 4), pend := f 4 2, per := f 6 2, phase := f 8 4, scope := f 12 4 % 8,
    extra := f 12 4 / 256 % 2 == 1, balerr := f 12 4 / 512 % 2 == 1 }
def Barrier.bytes (b : Barrier) : List Byte :=
  toLE 4 (wrap 32 b.bal) ++ toLE 2 b.pend ++ toLE 2 b.per ++ toLE 4 b.phase ++
  toLE 4 (b.scope + 256 * bit b.extra + 512 * bit b.balerr)
/-- Complete (R275). -/
def Barrier.complete (b : Barrier) : Barrier :=
  if b.pend = 0 ∧ b.bal = 0 then { b with phase := (b.phase + 1) % 2 ^ 32, pend := b.per } else b
/-- Add (R275): clamped, with BALERR on clamping. -/
def Barrier.addBal (b : Barrier) (d : Int) : Barrier :=
  let x := b.bal + d
  if x < -(2 ^ 31) then { b with bal := -(2 ^ 31), balerr := true }
  else if 2 ^ 31 - 1 < x then { b with bal := 2 ^ 31 - 1, balerr := true }
  else { b with bal := x }
def Barrier.init (n scope : Nat) : Barrier :=
  { bal := 0, pend := n, per := n, phase := 0, scope := scope, extra := false, balerr := false }
def Barrier.arrive (b : Barrier) (x : Nat) : Barrier :=
  if b.pend = 0 then { b with extra := true } else ({ b.addBal x with pend := b.pend - 1 }).complete
def Barrier.land (b : Barrier) (m : Nat) : Barrier := (b.addBal (-(m : Int))).complete

def State.barrierAt (s : State) (pa : Nat) : Barrier := barrierOf (s.load pa 16)
def State.setBarrier (s : State) (pa : Nat) (b : Barrier) : State := s.store pa b.bytes
/-- Bytes that landed are subtracted from a barrier object, if its page is there (R271). An object that cannot be read is an error that
the launch of the copy consumes (R295, log 79). -/
def State.landOn (s : State) (launch core : Nat) (va : Option Nat) (m : Nat) : State :=
  match va with
  | none => s
  | some va => match s.xlate (s.launch launch).space none va with
    | .leaf pa _ =>
      if s.poisoned pa 16 then s.consume launch (dieOf core) else s.setBarrier pa ((s.barrierAt pa).land m)
    | _ => s

/-- The physical address of a scratchpad byte that a thread may read or write: its partition's, with RD or W as PROTECT left them (R90). -/
def State.scratchPa (s : State) (tid va : Nat) (write : Bool) : Option Nat :=
  match s.xlate (s.spaceOf tid) (some (coreOf (gidOf tid))) va with
  | .leaf pa e => if e.kind = 1 ∧ e.owner = s.spaceOf tid ∧ (if write then e.w else e.rd) then some pa else none
  | _ => none
/-- Whether the walk of an address by a thread breaches R86: an uncorrectable error, which the thread consumes (R295). -/
def State.walkBreach (s : State) (tid va : Nat) : Bool := s.xlate (s.spaceOf tid) (some (coreOf (gidOf tid))) va == .breach
/-- Where an object or record in scratchpad lies: misaligned, outside the scratchpad that the thread may use, or at an address
(R269, R408, R415); `.error none` is a breach of the page table. -/
def State.scratchAt (s : State) (tid va align : Nat) (write : Bool) : Except (Option TrapInfo) Nat :=
  if va % align ≠ 0 then .error (some (accTrap .align s.cur.pc write write va))
  else match s.scratchPa tid va write with
    | some pa => .ok pa
    | none => .error (if s.walkBreach tid va then none else some (accTrap .permLoad s.cur.pc write write va))
/-- The pages of a range of bytes. -/
def pagesUnder (va n : Nat) : List Nat :=
  (upTo ((n + va % frameBytes + frameBytes - 1) / frameBytes)).map (fun i => va - va % frameBytes + i * frameBytes)
/-- Whether a range of bytes lies wholly in the scratchpad that a thread may use (R408, R412), as far as its pages can be walked. -/
def State.inScratch (s : State) (tid va n : Nat) (write : Bool) : Bool :=
  (pagesUnder va n).all (fun a => (s.scratchPa tid a write).isSome || s.walkBreach tid a)
/-- Whether a page of a range breaches R86. -/
def State.spanBreach (s : State) (tid va n : Nat) : Bool := (pagesUnder va n).any (s.walkBreach tid)
def trapOf {α : Type} : Except (Option TrapInfo) α → Option TrapInfo
  | .error t => t
  | .ok _ => none
/-- Waits of an access to scratchpad by a thread: an acquire before it, and its own earlier stores to and loads from the sectors (R194,
R196, R197). -/
def State.objWait (s : State) (tid va n : Nat) : Option Wait :=
  let a := unalias (some (coreOf (gidOf tid))) (va % vaMod)
  (s.acqWait tid).or ((upTo ((n + 31) / 32)).findSome? (fun i =>
    if s.sectorPending tid (a + 32 * i) then some (.sector (a + 32 * i))
    else if s.fills.any (fun e => e.2.tid == tid && e.2.sectors.contains (s.sectorOf (s.spaceOf tid) (a + 32 * i))) then some .accesses
    else none))

/-! ## Layout records (R264 to R268) -/

structure Layout where
  src : Nat
  dst : Nat
  ext : List Nat
  sfmt : Nat
  dfmt : Nat
  ndim : Nat
  toTile : Bool
  odd : Bool
  sat : Bool
  blk : Nat
  strd : List Int
  scstep : Int
  scales : Nat
  idx : Nat
  /-- Limits that concern the record alone, apart from IDX and DST. -/
  ok : Bool
  deriving DecidableEq, Repr

def four (fmt : Nat) : Bool := 5 ≤ fmt && fmt ≤ 8
def layoutOf (b : List Byte) : Layout :=
  let f := fun (o n : Nat) => fieldLE b o n
  let ndim := f 27 1 % 8
  let ext := (upTo 5).map (fun i => f (16 + 2 * i) 2)
  let strd := (upTo 4).map (fun i => toSigned 32 (f (28 + 4 * i) 4))
  let sfmt := f 26 1 % 16
  let dfmt := f 26 1 / 16
  let tile := f 27 1 / 8 % 2 == 1
  let blk := f 27 1 / 64
  let l := blkLen blk
  { src := f 0 7, dst := f 8 8, ext := ext, sfmt := sfmt, dfmt := dfmt, ndim := ndim, toTile := tile,
    odd := f 27 1 / 16 % 2 == 1, sat := f 27 1 / 32 % 2 == 1, blk := blk, strd := strd, scstep := f 44 4,
    scales := f 48 7, idx := f 56 7,
    ok := f 7 1 == 0 && f 55 1 == 0 && f 63 1 == 0 && sfmt ≤ 10 && dfmt ≤ 10 && 1 ≤ ndim && ndim ≤ 5 && blk ≤ 2 &&
      ext.zipIdx.all (fun e => if e.2 < ndim then e.1 != 0 else e.1 == 0) &&
      strd.zipIdx.all (fun e => e.2 + 1 < ndim || e.1 == 0) &&
      (four sfmt || (f 44 4 == 0 && f 48 8 == 0)) && ((sfmt == 10) == (dfmt == 10)) && !(dfmt == 9 && tile) &&
      (!four sfmt || (ndim ≤ 2 && ext.headD 0 % l == 0)) && (!four dfmt || ext.headD 0 % l == 0) &&
      (if tile then ndim == 2 && f 8 1 / 16 == 0 && f 8 8 / 2 ^ 17 == 0 else f 15 1 == 0) }

def Layout.four (y : Layout) : Bool := Machine.four y.sfmt || Machine.four y.dfmt
def Layout.l (y : Layout) : Nat := blkLen y.blk
/-- Elements of a unit: a block when a format is of the 4-bit family, else one. -/
def Layout.unit (y : Layout) : Nat := if y.four then y.l else 1
/-- Bytes of an element of a format that is no 4-bit format. -/
def elBytes (fmt : Nat) : Nat := Flt.codeBits fmt / 8
/-- Destination bytes of a unit (R268). -/
def Layout.unitBytes (y : Layout) : Nat := if Machine.four y.dfmt then y.l / 2 + 1 else y.unit * elBytes y.dfmt
/-- Elements below the slice dimension. -/
def Layout.inner (y : Layout) : Nat := prod (y.ext.take (y.ndim - 1))
/-- Units of a slice, as a half-open range (R269). -/
def Layout.range (y : Layout) (first count : Nat) : Nat × Nat :=
  (first * y.inner / y.unit, min (first + count) (y.ext.getD (y.ndim - 1) 0) * y.inner / y.unit)
/-- Coordinates of a linear index (R267). -/
def coords : List Nat → Nat → List Nat
  | [], _ => []
  | e :: r, x => if e = 0 then 0 :: coords r x else x % e :: coords r (x / e)
def Layout.coords (y : Layout) (u : Nat) : List Nat := Machine.coords y.ext (u * y.unit)

/-- The row of the source that a unit reads, as an address: SRC plus strides, or the gathered row (R265, R272). -/
def Coll.rowAt (c : Coll) (y : Layout) (u : Nat) : Int :=
  let x := (y.coords u).drop 1
  let x := if c.gather then [c.idx.getD (x.headD 0) 0] else x
  x.zipIdx.foldl (fun a e => a + e.1 * y.strd.getD e.2 0) (y.src : Int)
/-- The pieces of source that a unit reads: its elements, then its scale byte (R265). -/
def Coll.srcPieces (c : Coll) (y : Layout) (u : Nat) : List (Nat × Nat) :=
  let i0 := (y.coords u).headD 0
  let row := c.rowAt y u
  let at' := fun (z : Int) => (z % vaMod).toNat
  if Machine.four y.sfmt then
    let x := (y.coords u).getD 1 0
    let r := if c.gather then c.idx.getD x 0 else x
    [(at' (row + (i0 / 2 : Nat)), y.l / 2), (at' ((y.scales : Int) + r * y.scstep + (i0 / y.l : Nat)), 1)]
  else [(at' (row + (i0 * elBytes y.sfmt : Nat)), y.unit * elBytes y.sfmt)]

/-- What a byte of the source or the destination finds (R271, R277). -/
inductive Probe where
  | ok (pa : Nat)
  | wait (page : Nat)
  | fail (kind va : Nat)
  deriving DecidableEq, Repr
def State.probeSrc (s : State) (core space va : Nat) : Probe :=
  match s.xlate space (some core) va with
  | .leaf pa e =>
    if e.owner ≠ space ∨ !e.rd ∨ e.kind = 4 then .fail 1 va
    else if s.poisoned pa 1 then .fail 3 va else .ok pa
  | .absent e => if e.state = 4 then .fail 2 va else .wait (va / frameBytes)
  | .none => .fail 0 va
  | .breach => .fail 3 va
/-- Scratchpad that has gone with its die is an uncorrectable error of the element (R41, log 79). -/
def State.probeDst (s : State) (core space va : Nat) : Probe :=
  match s.xlate space (some core) va with
  | .leaf pa e => if e.owner ≠ space ∨ !e.w ∨ e.kind ≠ 1 then .fail 1 va else if s.lostDie pa then .fail 3 va else .ok pa
  | .absent _ => .wait (va / frameBytes)
  | .none => .fail 0 va
  | .breach => .fail 1 va

/-- The destination bytes of a unit from its source values (R266): codes and scale byte for a 4-bit format. -/
def Layout.convert (y : Layout) (src : List Byte) : List Nat × Option Nat :=
  let rnd := bit y.odd
  let n := y.unit
  let codes := if Machine.four y.sfmt then
      (upTo n).map (fun i => (src.getD (i / 2) 0).toNat / 16 ^ (i % 2) % 16)
    else (upTo n).map (fun i => fieldLE src (elBytes y.sfmt * i) (elBytes y.sfmt))
  let sb := if Machine.four y.sfmt then (src.getD (y.l / 2) 0).toNat else 0
  if y.sfmt = y.dfmt then (codes, if Machine.four y.sfmt then some sb else none)
  else
    let vals := codes.map (fun x => if Machine.four y.sfmt then Flt.decode4 sb x else Flt.decodeCode y.sfmt x)
    if Machine.four y.dfmt then
      let r := Flt.narrowBlock (y.dfmt - 5) rnd none vals
      (r.1, some r.2)
    else (vals.map (Flt.encodeCode y.dfmt rnd y.sat), none)
/-- Packed bytes of a unit (R233, R267). -/
def Layout.pack (y : Layout) (x : List Nat × Option Nat) : List Byte :=
  if Machine.four y.dfmt then
    (upTo (y.l / 2)).map (fun j => BitVec.ofNat 8 (x.1.getD (2 * j) 0 + 16 * x.1.getD (2 * j + 1) 0)) ++
    [BitVec.ofNat 8 (x.2.getD 0)]
  else x.1.flatMap (toLE (elBytes y.dfmt))
/-- The address of a unit's destination in scratchpad (R267). -/
def Layout.dstVa (y : Layout) (u : Nat) : Nat := (y.dst + u * y.unitBytes) % vaMod

/-! ## Collectives (R269 to R273) -/

/-- The group that holds the destination tile of a collective: group index DGROUP of its workgroup (R267). -/
def State.wgGroup (s : State) (launch wg gidx : Nat) : Option Nat :=
  let r := (s.launch launch).record
  (s.groups.find? (fun e => e.2.launch == launch && r.inst e.2 r.wgLevel == wg && e.2.gidx == gidx)).map (·.1)
/-- The reservation of a DKIND-1 record, when it passes R267: its group and the tile record. -/
def State.dstTile (s : State) (c : Coll) (y : Layout) : Option (Nat × BitVec 256) :=
  match s.wgGroup c.launch c.wg (y.dst / 256 % 512) with
  | none => none
  | some g =>
    let t := s.tile g (y.dst % 16)
    if t.v && t.sparse == 0 && t.fmt == y.dfmt && t.blk == y.blk && t.k == y.ext.headD 0 && y.ext.getD 1 0 ≤ t.rows then
      some (g, s.getT g (y.dst % 16))
    else none

/-- Removes an index from half-open ranges; adds one. -/
def rangesDel (u : Nat) : List (Nat × Nat) → List (Nat × Nat)
  | [] => []
  | (a, b) :: r =>
    if a ≤ u ∧ u < b then (if a < u then [(a, u)] else []) ++ (if u + 1 < b then [(u + 1, b)] else []) ++ r
    else (a, b) :: rangesDel u r
def inRanges (u : Nat) (l : List (Nat × Nat)) : Bool := l.any (fun r => r.1 ≤ u && u < r.2)
def rangesAll (l : List (Nat × Nat)) : List Nat := l.flatMap (fun r => (upTo (r.2 - r.1)).map (r.1 + ·))

def Coll.updSlice (c : Coll) (i : Nat) (f : CSlice → CSlice) : Coll :=
  { c with slices := c.slices.zipIdx.map (fun x => if x.2 = i then f x.1 else x.1) }
def State.setColl (s : State) (id : Nat) (c : Coll) : State := { s with colls := s.colls.put id c }

/-- A collective whose elements have all landed or been skipped is over: its tokens return to idle and its slot is free
(R273, R276). -/
def State.collDone (s : State) (id : Nat) : State :=
  match s.colls.find id with
  | none => s
  | some c =>
    if c.started && c.parked == [] && c.slices.all (fun x => x.left == []) then
      c.slices.foldl (fun s x => s.disarm x.gid x.tok) { s with colls := s.colls.erase id }
    else s

/-- Whether every access of a supplier before its COPY has been performed (R276), its packets that wait for room among them (R107). -/
def State.supplied (s : State) (c : Coll) : Bool :=
  c.slices.all (fun x => !(s.stores.any (fun e => e.2.tid == x.tid && e.1 < x.at')) &&
    !(s.fills.any (fun e => e.2.tid == x.tid && e.1 < x.at')) &&
    !(s.queues.any (fun q => q.2.waiting.any (fun w => w.1 == x.tid && w.2.closedBy < x.at'))))

/-- What stands for an entry of an index list that could not be read at the start; its rows fail as the entry does (R272, log 64). -/
def badEntry : Nat := 2 ^ 32
/-- What a byte of an index list finds: it is read in scratchpad alone. -/
def State.probeIdx (s : State) (core space va : Nat) : Probe :=
  match s.probeSrc core space va with
  | .ok pa => if inRegion 1 pa then .ok pa else .fail 1 va
  | .wait _ => .fail 1 va
  | p => p
def Coll.entryVa (c : Coll) (y : Layout) (j : Nat) : Nat := (unalias (some c.core) y.idx + 4 * j) % vaMod
/-- Entry `j` of the index list of a collective (R272). -/
def State.idxEntry (s : State) (c : Coll) (y : Layout) (j : Nat) : Nat :=
  let ps := (upTo 4).map (fun i => s.probeIdx c.core c.space (c.entryVa y j + i))
  if ps.all (fun p => match p with | .ok _ => true | _ => false) then
    leNat (ps.map (fun p => match p with | .ok pa => (s.load pa 1).headD 0 | _ => 0))
  else badEntry

/-- Every group of a collective's workgroup that has not ended has supplied its slice (R270). -/
def State.allSupplied (s : State) (c : Coll) : Bool :=
  let r := (s.launch c.launch).record
  (s.groups.filter (fun e => e.2.launch == c.launch && r.inst e.2 r.wgLevel == c.wg)).all (fun e => c.slices.any (fun x => x.gid == e.1))
/-- COLLECTIVE_START (R267, R270, R272): every live group of the workgroup has supplied its slice, and what each supplier did before has
been performed (R276). -/
def execCollectiveStart (id : Nat) (s : State) : Host.Outcome State Fault Refusal :=
  match s.colls.find id with
  | none => .next s
  | some c =>
    if c.started then .next (s.collDone id)
    else if s.allSupplied c && s.supplied c then
      let y := layoutOf c.record
      let c := { c with started := true, tile := if y.toTile then s.dstTile c y else none,
                        idx := if c.gather then (upTo (y.ext.getD 1 0)).map (s.idxEntry c y) else [] }
      let bad := y.toTile && c.tile.isNone
      let c := if bad then
          { c with parked := c.slices.zipIdx.flatMap (fun x => (rangesAll x.1.left).map (fun u =>
                     { slice := x.2, unit := u, kind := 4, side := 1, va := 0 })),
                   slices := c.slices.map (fun x => { x with left := [] }) }
        else c
      .next ((s.setColl id c).collDone id)
    else .next s

/-- A unit's values go to its place in a tile (R250, R267); the tile of a group that has gone takes nothing (log 65). -/
def State.putUnit (s : State) (g : Nat) (rec : BitVec 256) (y : Layout) (u : Nat) (v : List Nat × Option Nat) : State :=
  if g = goneGid then s
  else
    let t := tileOf rec
    let co := y.coords u
    let s := v.1.zipIdx.foldl (fun s e => s.setCode g t (co.getD 1 0) (co.headD 0 + e.2) e.1) s
    match v.2 with | some sb => s.setOpByte g (t.scaleAt (co.getD 1 0) (co.headD 0)) sb | none => s
/-- What the bytes of a unit's source find (R271): those of an index entry that was not read come first. -/
def State.findUnit (s : State) (c : Coll) (y : Layout) (u : Nat) : List Probe :=
  let j := ((y.coords u).drop 1).headD 0
  let bad := if c.gather ∧ c.idx.getD j 0 = badEntry then (upTo 4).map (fun i => s.probeIdx c.core c.space (c.entryVa y j + i)) else []
  bad ++ (c.srcPieces y u).flatMap (fun p => (upTo p.2).map (fun k => s.probeSrc c.core c.space ((p.1 + k) % vaMod)))
/-- The physical addresses of probes that found their bytes. -/
def foundPas (l : List Probe) : List Nat := l.filterMap (fun p => match p with | .ok pa => some pa | _ => none)
/-- The virtual address of a source byte of a unit, by the physical address it found. -/
def State.byteVa (s : State) (c : Coll) (y : Layout) (u pa : Nat) : Nat :=
  (((c.srcPieces y u).flatMap (fun p => (upTo p.2).map (fun k => (p.1 + k) % vaMod))).find? (fun va =>
    s.probeSrc c.core c.space va == .ok pa)).getD 0
/-- The first byte of host memory among some whose response has not come, and whether it will not come (R43, R44). -/
def Coll.hostWait (c : Coll) (pas : List Nat) : Option (Nat × Bool) :=
  match pas.find? (fun pa => inRegion 2 pa && !c.got.contains (pa / 256)) with
  | some pa => some (pa, c.lost.contains (pa / 256))
  | none => none

/-! ### Sector parts (R271) -/

/-- Bytes of a unit's destination in the first of the sectors that it lies in; a unit of a tile is one part. -/
def Layout.cut (y : Layout) (u : Nat) : Nat := if y.toTile then y.unitBytes else min y.unitBytes (32 - y.dstVa u % 32)
/-- The bytes of a unit that are still to land, as a half-open range. -/
def CSlice.due (x : CSlice) (y : Layout) (u : Nat) : Nat × Nat :=
  match x.half.find? (fun h => h.1 == u) with
  | none => (0, y.unitBytes)
  | some (_, true) => (0, y.cut u)
  | some (_, false) => (y.cut u, y.unitBytes)
/-- Those of them that lie in a sector of the destination, named by its address / 32. -/
def CSlice.dueIn (x : CSlice) (y : Layout) (u sec : Nat) : Nat × Nat :=
  if y.toTile then x.due y u
  else
    let d := x.due y u
    (max d.1 (32 * sec - y.dstVa u), min d.2 (32 * sec + 32 - y.dstVa u))
/-- Some bytes of a unit have landed: the unit is over, or one part of it is left. -/
def CSlice.landed (x : CSlice) (y : Layout) (u : Nat) (d : Nat × Nat) : CSlice :=
  if d = x.due y u then { x with left := rangesDel u x.left, half := x.half.filter (fun h => h.1 != u) }
  else { x with half := x.half ++ [(u, d.1 != 0)] }
/-- Bytes at rising addresses as runs, each within a sector. -/
def runs : List (Nat × Byte) → List (Nat × List Byte)
  | [] => []
  | (a, b) :: r => match runs r with
    | (a', bs) :: r' => if a + 1 = a' ∧ a / 32 = a' / 32 then (a, b :: bs) :: r' else (a, [b]) :: (a', bs) :: r'
    | [] => [(a, [b])]
/-- Stores of a copy into scratchpad, as sector parts (R193, R296). -/
def State.storeRuns (s : State) (launch : Nat) (bs : List (Nat × Byte)) : State :=
  (runs bs).foldl (fun s w => (s.noteStore launch (flatBase + (w.1 - scratchBase)) w.1 1).store w.1 w.2) s

/-- Takes what lies in one sector of one unit of a slice: its bytes for the destination, and how many count; or the unit is parked, asks for
its page, or waits for host memory (R43, R87, R271, R277). A forwarded element asks for a page once (R95), and a fault queue that cannot
be used kills the group of its supplier (R289). -/
def State.landUnit (s : State) (id i sec u : Nat) : State × List (Nat × Byte) × Nat :=
  match s.colls.find id with
  | none => (s, [], 0)
  | some c =>
    match c.slices[i]? with
    | none => (s, [], 0)
    | some x =>
      let y := layoutOf c.record
      let d := x.dueIn y u sec
      let park := fun (kind side va : Nat) =>
        (s.setColl id { c.updSlice i (fun x => { x with left := rangesDel u x.left }) with
          parked := c.parked ++ [{ slice := i, unit := u, kind := kind, side := side, va := va }] }, ([] : List (Nat × Byte)), 0)
      let want := fun (page : Nat) =>
        if c.asked.contains (u, page) && s.pagePending c.space page then s
        else
          let s := (s.setColl id { c with asked := c.asked.filter (fun a => a != (u, page)) ++ [(u, page)] }).requestPage c.space page 2 1
            (dieOf c.core) (c.core % 64) (s.launch c.launch).seq 0
          if (s.groups.find x.gid).isSome then s.needQueue x.gid 3 else s
      let found := s.findUnit c y u
      let dsts := if y.toTile then [] else
        (upTo (d.2 - d.1)).map (fun k => s.probeDst c.core c.space ((y.dstVa u + d.1 + k) % vaMod))
      match found.findSome? (fun p => match p with | .fail k va => some (k, va) | _ => none) with
      | some (k, va) => park k 0 va
      | none =>
        match dsts.findSome? (fun p => match p with | .fail k va => some (k, va) | _ => none) with
        | some (k, va) => park k 1 va
        | none =>
          match (found ++ dsts).findSome? (fun p => match p with | .wait page => some page | _ => none) with
          | some page => (want page, [], 0)
          | none =>
            let j := ((y.coords u).drop 1).headD 0
            if c.gather ∧ c.idx.getD j 0 = badEntry then
              -- the entry can be read now
              (s.setColl id { c with idx := c.idx.set j (s.idxEntry c y j) }, [], 0)
            else match c.hostWait (foundPas found) with
              | some (pa, lost) => if lost then park 3 0 (s.byteVa c y u pa) else (s, [], 0)
              | none =>
                let pas := foundPas found
                let v := y.convert (pas.map (fun pa => (s.load pa 1).headD 0))
                let s := pas.foldl State.touch s
                let s := if y.toTile then
                    match c.tile with | some (g, rec) => s.putUnit g rec y u v | none => s
                  else s
                let c := { c.updSlice i (fun x => x.landed y u d) with asked := c.asked.filter (fun a => a.1 != u) }
                (s.setColl id c, if y.toTile then [] else (foundPas dsts).zip (((y.pack v).drop d.1).take (d.2 - d.1)), d.2 - d.1)
/-- A sector part of a slice lands (R271): its bytes are written at once, and counted once on the barrier object of its supplier. -/
def State.landPart (s : State) (id i sec launch core : Nat) (barrier : Option Nat) (us : List Nat) : State :=
  let r := us.foldl (fun (a : State × List (Nat × Byte) × Nat) u =>
    let b := a.1.landUnit id i sec u
    (b.1, a.2.1 ++ b.2.1, a.2.2 + b.2.2)) (s, [], 0)
  if r.2.2 = 0 then r.1 else (r.1.storeRuns launch r.2.1).landOn launch core barrier r.2.2

/-- The sector part that holds unit `k` of a collective lands, in the first slice in which it is still due (R271). -/
def State.landColl (s : State) (id k : Nat) : State :=
  match s.colls.find id with
  | none => s
  | some c =>
    if !c.started || !s.supplied c then s
    else match c.slices.zipIdx.find? (fun x => inRanges k x.1.left) with
      | none => s
      | some (x, i) =>
        let y := layoutOf c.record
        let sec := (y.dstVa k + (x.due y k).1) / 32
        let part := if y.toTile then [k]
          else (rangesAll x.left).filter (fun u => let d := x.dueIn y u sec; decide (d.1 < d.2))
        let host := fun (s : State) (u : Nat) => ((foundPas (s.findUnit c y u)).filter (inRegion 2)).map (· / 256)
        let blocks := (part.flatMap (host s)).eraseDups
        let s' := s.landPart id i sec c.launch c.core x.barrier part
        -- a block that no element still needs is no longer in flight (R91)
        let s' := if blocks = [] then s'
          else { s' with colls := s'.colls.upd id (fun c => { c with got := c.got.filter (fun b => !blocks.contains b ||
            c.slices.any (fun x => (rangesAll x.left).any (fun u => (host s' u).contains b))) }) }
        s'.collDone id

/-! ## Faults (R277 to R279) -/

/-- The bytes of a parked element that are still to land. -/
def Coll.dueOf (c : Coll) (p : Park) : Nat × Nat :=
  match c.slices[p.slice]? with | some x => x.due (layoutOf c.record) p.unit | none => (0, 0)
def Coll.dueBytes (c : Coll) (ps : List Park) : Nat := ps.foldl (fun n p => let d := c.dueOf p; n + (d.2 - d.1)) 0
def Coll.gidx (s : State) (c : Coll) (p : Park) : Nat :=
  match c.slices[p.slice]? with | some x => if x.gid = goneGid then 2 ^ 40 else (s.group x.gid).gidx | none => 2 ^ 41
/-- The first parked element: the lowest in the collective's order, then the supplying group with the lowest index. -/
def Coll.first (s : State) (c : Coll) : List Park → Option Park
  | [] => none
  | p :: r => match Coll.first s c r with
    | none => some p
    | some q => if q.unit < p.unit ∨ (q.unit = p.unit ∧ c.gidx s q < c.gidx s p) then some q else some p
/-- The thread that takes a report (R277). -/
def State.reportThread (s : State) (c : Coll) (p : Park) : Option Nat :=
  let r := (s.launch c.launch).record
  match c.slices[p.slice]? with
  | none => none
  | some x =>
    if (s.threads.find x.tid).isSome ∧ (s.thread x.tid).st ≠ .exited then some x.tid
    else match s.live x.gid with
      | t :: _ => some t
      | [] =>
        let gs := s.groups.filter (fun e => e.2.launch == c.launch && r.inst e.2 r.wgLevel == c.wg && s.live e.1 != [])
        match gs.foldl (fun (m : Option (Nat × Group)) e => match m with
            | none => some e
            | some f => if e.2.gidx < f.2.gidx then some e else m) none with
        | some e => (s.live e.1).head?
        | none => none

/-- COPY_FAULT_REPORT (R277, R278): a collective without an open report forms one for the page of its first parked element and
raises COPY_FAULT in a thread; without a thread left the launch is killed. An open report whose thread is gone goes to
another. -/
def execCopyFaultReport (id : Nat) (s : State) : Host.Outcome State Fault Refusal :=
  match s.colls.find id with
  | none => .next s
  | some c =>
    let y := layoutOf c.record
    if c.reportTo.isSome ∨ (c.report = [] ∧ c.parked = []) then .next s
    else match c.first s (if c.report = [] then c.parked else c.report) with
      | none => .next s
      | some p =>
        let set := if c.report ≠ [] then c.report
          else c.parked.filter (fun q => if p.kind = 4 then q.kind == 4
            else q.kind != 4 && q.side == p.side && q.va / frameBytes == p.va / frameBytes)
        let co := y.coords p.unit
        let f := fun (i : Nat) => co.getD i 0
        match s.reportThread c p with
        | none => .next ((s.launchNotice (s.launch c.launch) (dieOf c.core) 3).killLaunch c.launch 0x08)
        | some t =>
          let info : TrapInfo :=
            { cause := .copyFault, i0 := c.info0,
              i1 := BitVec.ofNat 64 (f 0 + f 1 * 2 ^ 16 + f 2 * 2 ^ 32 + f 3 * 2 ^ 48),
              i2 := BitVec.ofNat 64 (f 4 + p.kind * 2 ^ 16 + p.side * 2 ^ 19 + c.dueBytes set * 2 ^ 32),
              i3 := BitVec.ofNat 64 p.va }
          .next ((s.setColl id { c with report := set, reportTo := some t }).updThread t (fun x =>
            { x with reports := x.reports ++ [info] }))

/-- The collective with an open report that a TRAPINFO0 value names, in a thread's workgroup (R279, R420). -/
def State.namedReport (s : State) (tid info : Nat) : Option (Nat × Coll) :=
  let g := s.group (gidOf tid)
  let r := (s.launch g.launch).record
  s.colls.find? (fun e => e.2.core == coreOf (gidOf tid) && e.2.slot == info / 2 ^ 56 % 128 && e.2.handle == info % 2 ^ 56 &&
    e.2.launch == g.launch && e.2.wg == r.inst g r.wgLevel && e.2.report != [])
/-- Closes a report: its elements leave the parked set. -/
def Coll.closeReport (c : Coll) : Coll :=
  { c with parked := c.parked.filter (fun p => !c.report.contains p), report := [], reportTo := none }
/-- CRETRY (R279): the reported elements are taken again; for kind 4 the reservation is read again. -/
def State.retryReport (s : State) (tid info : Nat) : State :=
  match s.namedReport tid info with
  | none => s
  | some (id, c) =>
    let y := layoutOf c.record
    let again := c.report.any (fun p => p.kind == 4)
    if again && (s.dstTile c y).isNone then s.setColl id { c with report := [], reportTo := none }
    else
      let blocks := c.report.flatMap (fun p => (foundPas (s.findUnit c y p.unit)).map (· / 256))
      let c := { c with tile := if again then s.dstTile c y else c.tile, lost := c.lost.filter (fun b => !blocks.contains b) }
      s.setColl id (c.report.foldl (fun c p => c.updSlice p.slice (fun x => { x with left := x.left ++ [(p.unit, p.unit + 1)] }))
      c.closeReport)
/-- CSKIP (R279): zeros where the destination could be written, and the bytes that had not landed are credited. -/
def State.skipReport (s : State) (tid info : Nat) : State :=
  match s.namedReport tid info with
  | none => s
  | some (id, c) =>
    let y := layoutOf c.record
    let zeros := c.report.flatMap (fun p =>
      let d := c.dueOf p
      if p.side = 1 ∨ y.toTile then []
      else foundPas ((upTo (d.2 - d.1)).map (fun k => s.probeDst c.core c.space ((y.dstVa p.unit + d.1 + k) % vaMod))))
    let s := c.report.foldl (fun s p =>
      if p.side = 1 ∨ !y.toTile then s
      else match c.tile with
        | none => s
        | some (g, rec) => s.putUnit g rec y p.unit (List.replicate y.unit 0, if (tileOf rec).four then some 0 else none)) s
    let s := s.storeRuns c.launch (zeros.foldl (fun (t : Tab Byte) pa => t.put pa 0) [])
    let s := (s.setColl id (c.report.foldl (fun c p => c.updSlice p.slice (fun x =>
      { x with half := x.half.filter (fun h => h.1 != p.unit) })) c.closeReport)).collDone id
    c.report.foldl (fun s p => let d := c.dueOf p
      s.landOn c.launch c.core (match c.slices[p.slice]? with | some x => x.barrier | none => none) (d.2 - d.1)) s

end Sys2Proof.Machine
end

