-- ==== Sys2Proof/Machine/MemoryOps.lean ====
section
/-! DEFINITION. Memory, atomic and synchronisation instructions, opcodes 0x180 to 0x18E (R387 to R399). -/
namespace Sys2Proof.Machine

/-- The acting lanes of a thread's group. -/
def LaneOp.mates (op : LaneOp) (s : State) (tid : Nat) : List Nat :=
  s.cur.lanes.filter (fun t => gidOf t == gidOf tid && op.lane s t == .act)
/-- Whether a thread is the highest acting lane of its group in the issue group (R158). -/
def LaneOp.top (op : LaneOp) (s : State) (tid : Nat) : Bool := (op.mates s tid).getLast? == some tid

/-- Whether an instruction acts in the issue group: no cause of the instruction and no cause of a lane (R282). -/
def LaneOp.clean (op : LaneOp) (s : State) : Bool :=
  s.cur.lanes.all (fun t => !(s.undeclared op.uses t || op.own s t) &&
    (match op.lane s t with | .trap _ => false | _ => true))
/-- Lanes that begin what their threads then wait for, as one act: PARAMBOUND is set as for a lane that acts (R18). -/
def LaneOp.begun (op : LaneOp) (s : State) (ts : List Nat) (f : State → Nat → State) : State :=
  ts.foldl (fun c t => f (if s.beyond op.uses t then c.updThread t (fun x => { x with paramBound := true }) else c) t) s

/-- The addresses of the elements of a lane: one, or one for each index word (R390, R391). -/
def mEls (f : MForm) (s : State) (tid : Nat) (gather : Bool) : List Nat :=
  if gather then (upTo f.words).map (fun i => MForm.ea f s tid i) else [MForm.ea f s tid 0]
/-- The stores of the lanes below a lane of the issue group whose guards pass: what takes the memory pipe's room before it. -/
def lowerStores (u : Uses) (els : State → Nat → List Nat) (s : State) (tid : Nat) : List (Nat × Nat) :=
  ((s.cur.lanes.takeWhile (· != tid)).filter (s.guardOn u.h)).flatMap (fun t => (els s t).map (fun va => (t, va)))
/-- Bytes of an element. -/
def mBytes (f : MForm) (gather : Bool) : Nat := if gather then 4 else sizeBytes f.size.toNat

/-- The causes of a list of elements (R282). -/
def firstTrap (l : List (Option TrapInfo)) : Option TrapInfo := l.foldl firstCause none

/-- A load of any shape: waits, causes and effect (R389, R390, R391). -/
def loadOp (u : Uses) (f : MForm) (gather : Bool) : LaneOp :=
  { uses := u,
    block := fun s t => (s.ordWait t 0).or (s.ldWait t (mEls f s t gather) (mBytes f gather)),
    cause := fun s t => firstTrap ((mEls f s t gather).map (fun va => (s.ldFind t va (mBytes f gather)).trap?)),
    act := fun o c t =>
      (c.ceil t f.scope.toNat).doLoad t [] (regsOf t f.data f.words) f.subop.toNat (f.ord == 1) (mBytes f gather)
        (mEls f o t gather) }
/-- A store of any shape (R390, R391). -/
def storeOp (u : Uses) (f : MForm) (gather : Bool) : LaneOp :=
  let n := mBytes f gather
  { uses := u,
    block := fun s t => (s.ordWait t f.ord.toNat).or
      (s.storePipe (lowerStores u (fun s t => mEls f s t gather) s t) t (mEls f s t gather)),
    cause := fun s t => firstTrap ((mEls f s t gather).map (fun va => s.stCause va n false)),
    act := fun o c t =>
      let bs := o.dataBytes t f.data (if gather then 4 * f.words else n)
      (mEls f o t gather).zipIdx.foldl (fun c e =>
        c.addStore t e.1 ((bs.drop (n * e.2)).take n) f.ord.toNat f.scope.toNat none) (c.ceil t f.scope.toNat) }

/-- LD (R390). -/
def execLd (f : MForm) (s : State) : Host.Outcome State Fault Refusal := (loadOp (Instr.ld f).uses f false).exec s
/-- ST (R390). -/
def execSt (f : MForm) (s : State) : Host.Outcome State Fault Refusal := (storeOp (Instr.st f).uses f false).exec s
/-- LDN (R391). -/
def execLdn (f : MForm) (s : State) : Host.Outcome State Fault Refusal := (loadOp (Instr.ldn f).uses f true).exec s
/-- STN (R391). -/
def execStn (f : MForm) (s : State) : Host.Outcome State Fault Refusal := (storeOp (Instr.stn f).uses f true).exec s
/-- An access that a group makes once: its acting lanes wait together for what its highest waits for (R390). -/
def LaneOp.shared (op : LaneOp) (s : State) (tid : Nat) : Option Wait :=
  match (({ op with block := fun _ _ => none }).mates s tid).getLast? with
  | some h => (op.block s h).map (fun w => match w with | .pipe _ => w | _ => if h = tid then w else .released [h])
  | none => none
/-- LDU (R390): one access for the group, of its highest acting lane, which fills the flag of every acting lane. -/
def execLdu (f : MForm) (s : State) : Host.Outcome State Fault Refusal :=
  let b := loadOp (Instr.ldu f).uses f false
  LaneOp.exec { b with
                block := b.shared,
                act := fun o c t =>
                  let b := { b with block := b.shared }
                  if b.top o t then
                    (c.ceil t f.scope.toNat).doLoad t ((b.mates o t).filter (· != t)) (regsOf t f.data f.words) f.subop.toNat (f.ord == 1)
                      (mBytes f false) (mEls f o t false)
                  else c } s
/-- STU (R390): one access for the group, of its highest acting lane. -/
def execStu (f : MForm) (s : State) : Host.Outcome State Fault Refusal :=
  let u := (Instr.stu f).uses
  let b := storeOp u f false
  let tops := fun (s : State) (t : Nat) => if ({ b with block := fun _ _ => none }).top s t then [MForm.ea f s t 0] else []
  let b0 := { b with block := fun s t => (s.ordWait t f.ord.toNat).or (s.storePipe (lowerStores u tops s t) t [MForm.ea f s t 0]) }
  let b1 := { b0 with block := b0.shared }
  LaneOp.exec { b1 with act := fun o c t => if b1.top o t then b.act o c t else c } s

/-- Word j of a window for LDPARAM: the value and whether it lies beyond the bound (R392). -/
def State.paramWord (s : State) (tid k : Nat) (j : Int) : W32 × Bool :=
  match (s.launchOf tid).record.win k with
  | some (words, _) => if 0 ≤ j && j < words then (s.param tid k j.toNat, false) else (0, true)
  | none => (0, true)
/-- LDPARAM (R392): reads the parameter store, not memory. -/
def execLdparam (f : MForm) (s : State) : Host.Outcome State Fault Refusal :=
  let k := match f.base with | .w k _ => k.toNat | _ => 0
  let n0 := match f.base with | .w _ n => n.toNat | _ => 0
  let m := 2 ^ (f.size.toNat - 2)
  LaneOp.exec
    { uses := (Instr.ldparam f).uses,
      cause := fun s t =>
        if ((s.launchOf t).record.win k).isNone then some { cause := .paramUnbound, i2 := BitVec.ofNat 64 k } else none,
      act := fun o c t =>
        let idx := match f.idx with | .v n => (o.getV t n.toNat).toNat | _ => 0
        let j : Int := (n0 + idx * 2 ^ f.scl.toNat : Nat) + f.ofs.toInt
        let ws := (upTo m).map (fun (i : Nat) => o.paramWord t k (j + i))
        let x := ws.zipIdx.foldl (fun (a : Nat) e => a + e.1.1.toNat * 2 ^ (32 * e.2)) 0
        let fl := ws.zipIdx.foldl (fun (a : Nat) e => if e.1.2 then a + 2 ^ e.2 else a) 0
        (c.wrData t f.data (4 * m) x).setP t f.subop.toNat (BitVec.ofNat 8 fl) } s

/-- PAGEREQ (R393): a fault entry of source 0 for an absent page; nothing for a page that is there. -/
def execPagereq (f : MForm) (s : State) : Host.Outcome State Fault Refusal :=
  let find := fun (s : State) (t : Nat) => s.xlate (s.spaceOf t) (some (coreOf (gidOf t))) (MForm.ea f s t 0)
  LaneOp.exec
    { uses := (Instr.pagereq f).uses,
      -- a request that finds the fault queue full waits, with those of the lanes below it counted (R95)
      block := fun s t =>
        let space := s.spaceOf t
        let asks := fun (l : List Nat) => (l.filter (fun u => match find s u with | .absent e => e.state != 4 && s.spaceOf u == space | _ => false)).map
          (fun u => MForm.ea f s u 0 / frameBytes)
        let lower := asks ((s.cur.lanes.takeWhile (· != t)).filter (s.guardOn f.h))
        let room := match s.kindQueue space 3 with | some (_, q) => q.depth - q.count | none => 0
        let n := s.newEntries space (lower ++ asks [t])
        if s.newEntries space lower < n ∧ room < n then some (.pipe 2) else none,
      cause := fun s t =>
        let va := MForm.ea f s t 0
        match find s t with
        | .leaf _ e => if e.owner ≠ s.spaceOf t then some (accTrap .permLoad s.cur.pc false false va) else none
        | .absent e => if e.state = 4 then some (accTrap .pageLost s.cur.pc false false va) else none
        | .none => some (accTrap .permLoad s.cur.pc false false va)
        | .breach => none,
      act := fun o c t =>
        let core := coreOf (gidOf t)
        match find o t with
        | .absent _ =>
          (c.requestPage (o.spaceOf t) (MForm.ea f o t 0 / frameBytes) 0 1 (dieOf core) (core % 64) (o.launchOf t).seq 0).needQueue (gidOf t) 3
        | .breach => c.consumeAt t
        | _ => c } s

/-- An atomic with a returned value (R394, R395). A residency fault enters its fault entry (source 3) and suspends the thread
at the instruction until the page resolves (R87). -/
def atomOp (u : Uses) (f : MForm) (flt : Bool) (fl : FltOp) : LaneOp :=
  let n := sizeBytes f.size.toNat
  let find := fun (s : State) (t : Nat) => s.atFind t (MForm.ea f s t 0) n flt f.subop.toNat f.scope.toNat
  { uses := u,
    block := fun s t => (s.ordWait t f.ord.toNat).or
      (match find s t with
        | .page _ => some (.page (MForm.ea f s t 0))
        | .here pa late =>
          let flat := unalias (some (coreOf (gidOf t))) (MForm.ea f s t 0)
          if s.sectorPending t flat then some (.sector flat)
          else if !late && s.fills.any (fun e => e.2.tid == t && e.2.sectors.contains (pa / 32)) then some .accesses else none
        | _ => none),
    cause := fun s t => match find s t with | .trap x => some x | _ => none,
    act := fun o c t =>
      let c := c.ceil t f.scope.toNat
      let bs := o.dataBytes t f.data (2 * n)
      let x := fieldLE bs 0 n
      let new := fieldLE bs n n
      match find o t with
      | .here pa late =>
        let fill : Fill := { tid := t, dst := regsOf t f.data f.words, flag := none, flagVal := 0,
                             what := .atom pa f.subop.toNat flt n x new, acq := f.ord == 1 || f.ord == 3,
                             inst := o.cur.serial }
        -- it counts as a store of its launch (R133, R134)
        let c := (c.touch pa).noteStore (c.group (gidOf t)).launch (unalias (some (coreOf (gidOf t))) (MForm.ea f o t 0)) pa
          (if inRegion 1 pa then 1 else 0)
        if late then c.addFill fill
        else if c.poisoned pa n then c.consumeAt t
        else
          let r := c.rmw fl pa f.subop.toNat flt n x new
          r.2.fillRegs fill n r.1
      | .bad => c.consumeAt t
      | _ => c }

/-- ATOM (R394). -/
def execAtom (f : MForm) (s : State) : Host.Outcome State Fault Refusal :=
  .next (((atomOp (Instr.atom f).uses f false Flt.atomF).run s).faultPages 4 s.cur.lanes)
/-- ATOMF (R394). -/
def execAtomf (f : MForm) (s : State) : Host.Outcome State Fault Refusal :=
  .next (((atomOp (Instr.atomf f).uses f true Flt.atomF).run s).faultPages 4 s.cur.lanes)
/-- RED (R394): retires and resolves as a store; REACH is checked at issue where its page is there (R395). -/
def execRed (f : MForm) (s : State) : Host.Outcome State Fault Refusal :=
  let n := sizeBytes f.size.toNat
  LaneOp.exec
    { uses := (Instr.red f).uses,
      block := fun s t => (s.ordWait t f.ord.toNat).or
        (s.storePipe (lowerStores (Instr.red f).uses (fun s t => [MForm.ea f s t 0]) s t) t [MForm.ea f s t 0]),
      cause := fun s t =>
        let va := MForm.ea f s t 0
        firstCause (s.stCause va n true)
          (match s.xlate (s.spaceOf t) (some (coreOf (gidOf t))) va with
            | .leaf _ e =>
              if e.kind = 3 ∨ e.kind = 4 ∨ !reaches e false f.subop.toNat (8 * n) f.scope.toNat then
                some (accTrap .atomicUnreachable s.cur.pc true true va)
              else none
            | _ => none),
      act := fun o c t =>
        let bs := o.dataBytes t f.data n
        (c.ceil t f.scope.toNat).addStore t (MForm.ea f o t 0) bs f.ord.toNat f.scope.toNat
          (some (f.subop.toNat, false, n, leNat bs)) } s

/-- FENCE (R396): a release waits as R197 says, an acquire for the thread's earlier reads. -/
def execFence (f : MForm) (s : State) : Host.Outcome State Fault Refusal :=
  LaneOp.exec
    { uses := (Instr.fence f).uses,
      block := fun s t =>
        if f.ord = 1 then (if s.fillsPending t then some .accesses else if s.redPending t false then some .stores else none)
        else s.ordWait t f.ord.toNat,
      act := fun _ c t => c.ceil t f.scope.toNat } s

/-- ACQR as its lanes meet it (R397): marks nothing empty; the value and flag are written when the thread goes on. -/
def acqrOp (f : MForm) : LaneOp :=
  let n := sizeBytes f.size.toNat
  { uses := (Instr.acqr f).uses,
    block := fun s t => (s.ordWait t 0).or (s.ldWait t [MForm.ea f s t 0] n true),
    cause := fun s t => (s.ldFind t (MForm.ea f s t 0) n).trap?,
    act := fun o c t =>
      let c := c.ceil t 5
      let fill : Fill := { tid := t, dst := regsOf t f.data f.words, flag := some f.subop.toNat, flagVal := 0, what := .value 0 }
      match o.ldFind t (MForm.ea f o t 0) n with
      | .here pa _ => if c.poisoned pa n then c.consumeAt t else (c.touch pa).fillRegs fill n (leNat (c.load pa n))
      | .absent => c.fillRegs { fill with flagVal := 1 } n 0
      | .bad => c.consumeAt t
      | _ => c }
/-- The place of an ACQR in host memory, whose value comes by a port (R43). -/
def State.acqrHost (s : State) (f : MForm) (tid : Nat) : Option Nat :=
  match s.ldFind tid (MForm.ea f s tid 0) (sizeBytes f.size.toNat) with
  | .here pa _ => if inRegion 2 pa then some pa else none
  | _ => none
/-- ACQR (R397): of host memory it is suspended until the response has come. -/
def execAcqr (f : MForm) (s : State) : Host.Outcome State Fault Refusal :=
  let op := acqrOp f
  if op.clean s then
    let slow := s.cur.lanes.filter (fun t => op.lane s t == .act && (s.acqrHost f t).isSome)
    let s1 := op.begun s slow (fun c t =>
      (c.ceil t 5).addFill { tid := t, dst := regsOf t f.data f.words, flag := some f.subop.toNat, flagVal := 0,
                             what := .load (sizeBytes f.size.toNat) [s.acqrHost f t], acq := true, acqr := true, inst := s.cur.serial })
    LaneOp.exec { op with block := fun o t => if slow.contains t then some .acqr else op.block o t } s1
  else op.exec s

/-- DRAINST (R398): waits for the thread's stores, with SEL 1 for its group's too; another thread's store that has faulted is
no longer among them, nor is one that issued after the DRAINST. -/
def execDrainst (f : VForm) (s : State) : Host.Outcome State Fault Refusal :=
  LaneOp.exec
    { uses := (Instr.drainst f).uses,
      block := fun s t =>
        if f.sel = 1 ∧ s.drainPending (gidOf t) s.stamp then some (.drain (some s.stamp))
        else if s.storesPending t then some (.drain none) else none,
      act := fun _ c _ => c } s

/-- The queue a control word belongs to, if a space has it bound. -/
def State.cwQueue (s : State) (space va : Nat) : Option (Nat × Queue) :=
  match s.queues.find? (fun e => e.1 / 65536 == space && e.2.cw == va) with
  | some e => some (e.1 % 65536, e.2)
  | none => none
/-- Kinds that a QCTL operation accepts on a queue (R399); `.abort` asks for a packet or a claim. -/
def qctlKind (op kind : Nat) : Bool :=
  match op with
  | 0 | 3 => true
  | 1 => kind == 0 || kind == 4
  | 2 => kind == 0 || kind == 1 || kind == 5 || kind == 6
  | _ => kind == 0 || kind == 1 || kind == 4 || kind == 5 || kind == 6
/-- The result word of QCTL (R399). -/
def qctlWord (code : Nat) (q : Queue) : Nat :=
  if code ≠ 0 then code * 2 ^ 48
  else q.kind * 2 ^ 40 + ((if q.scratch then 1 else 0) + (if q.netrx then 2 else 0) + (if q.ovf then 4 else 0) +
    (if q.drop then 8 else 0)) * 2 ^ 32 + q.count
/-- QCTL (R399): a wait begins only where the word is one that the thread may read. -/
def execQctl (f : MForm) (s : State) : Host.Outcome State Fault Refusal :=
  let op := f.subop.toNat
  let at' := fun (s : State) (t : Nat) => unalias (some (coreOf (gidOf t))) (MForm.ea f s t 0)
  let cause := fun (s : State) (t : Nat) =>
    let va := MForm.ea f s t 0
    if va % 32 ≠ 0 then some (accTrap .align s.cur.pc false false va)
    else match s.ldFind t va 32 with
      | .trap x => some { x with cause := .permLoad }
      | _ => none
  LaneOp.exec
    { uses := (Instr.qctl f).uses,
      block := fun s t =>
        if (cause s t).isSome then none
        else match s.cwQueue (s.spaceOf t) (at' s t) with
        | some (h, _) =>
          match s.freshQueue (s.spaceOf t) h with
          | some q =>
            if op = 1 ∧ qctlKind 1 q.kind ∧ q.count = 0 then some (.room (at' s t) false)
            else if op = 2 ∧ qctlKind 2 q.kind ∧ q.full then some (.room (at' s t) true)
            else none
          | none => none
        | none => none,
      cause := cause,
      act := fun o c t =>
        let space := o.spaceOf t
        match c.cwQueue space (at' o t) with
        | none => c.wr64 t f.data (BitVec.ofNat 64 (2 ^ 48))
        | some (h, q0) =>
          let q := (c.freshQueue space h).getD q0
          if !qctlKind op q.kind then c.wr64 t f.data (BitVec.ofNat 64 (qctlWord 2 q))
          else
            let c := if op = 3 then c.writeQueue space h { q with ovf := false, drop := false } else c
            let th := c.thread t
            let c := if op == 4 && (match th.packet with | some p => p.handle == h | none => false) then
                c.updThread t (fun x => { x with packet := none }) else c
            let c := match th.claim with
              | some cl => if op = 4 ∧ cl.handle = h then (c.release space cl).updThread t (fun x => { x with claim := none }) else c
              | none => c
            c.wr64 t f.data (BitVec.ofNat 64 (qctlWord 0 q)) } s

end Sys2Proof.Machine
end

