-- ==== Sys2Proof/Machine/MatrixOps.lean ====
section
/-! DEFINITION. Matrix instructions, opcodes 0x280 to 0x2CF (R403 to R413): reservations, tile loads, planes, the product,
the transform, drains and accumulator reads. Each act of a queued operation is in Machine/Matrix.lean. -/
namespace Sys2Proof.Machine

def tileNo (o : Operand) : Nat := match o with | .t n => n.toNat | _ => 0
def accNo (o : Operand) : Nat := match o with | .a n => n.toNat | _ => 0
/-- TILE_RESERVE on a tile register, or on a plane or accumulator (R283, log 22). -/
def tileTrap (n : Nat) : TrapInfo := { cause := .tileReserve, i2 := BitVec.ofNat 64 n }
def planeTrap (n : Nat) : TrapInfo := { cause := .tileReserve, i2 := BitVec.ofNat 64 (256 + n) }
/-- ILLEGAL_FIELD of the instruction under way. -/
def State.fieldTrap (s : State) : TrapInfo := opTrap .illegalField s.cur.raw
/-- The first cause that holds, in the order of R282. -/
def causes (l : List (Bool × TrapInfo)) : Option TrapInfo := firstTrap (l.map (fun x => if x.1 then some x.2 else none))

/-- In Ember mode a tile that is not BF16 is refused (R35, R405). -/
def State.emberBad (s : State) (t : Tile) : Bool := s.pkg.ember && t.fmt != 0
/-- A group of a launch that declares no accumulator (R251). -/
def State.noAccs (s : State) (tid : Nat) : Bool := (s.launchOf tid).record.accs == 0
/-- The core of a thread, as where its one operation is queued. -/
def ownCore (_ : State) (tid : Nat) : List Nat := [coreOf (gidOf tid)]
/-- An instruction whose lanes queue operations on the cores that `parts` gives: a lane waits until the queues have room for its
operations after those of the lanes before it (R141, R257, R262). -/
def LaneOp.queued (op : LaneOp) (parts : State → Nat → List Nat := ownCore) : LaneOp :=
  { op with
    block := fun s t => (op.block s t).or (
      let before := (s.cur.lanes.takeWhile (· != t)).filter (fun x => op.lane s x == .act)
      let need := (before ++ [t]).flatMap (parts s)
      if need.any (fun core => matDepth < (s.matq.getD core []).length + need.count core) then some (.pipe 4) else none) }

/-! ## Reservations and loads -/

/-- The record in registers (R407): 32 bytes, bytes 0 to 3 in the first register. -/
def State.recordOf (s : State) (tid : Nat) (o : Operand) : BitVec 256 := BitVec.ofNat 256 (leNat (s.dataBytes tid o 32))
/-- Whether a record may be reserved in a tile register of a group (R248, R249, R407). -/
def State.mayReserve (s : State) (gid n : Nat) (r : BitVec 256) : Bool :=
  let t := tileOf r
  let rec' := (s.launch (s.group gid).launch).record
  t.ok && t.baseu + t.extu ≤ rec'.opbuf * 16 &&
  (upTo 16).all (fun k => k == n || !(s.tile gid k).v || apart t.range (s.tile gid k).range)
/-- TRES (R248, R407). -/
def execTres (f : AForm) (s : State) : Host.Outcome State Fault Refusal :=
  let n := tileNo f.res
  let b : LaneOp :=
    { uses := (Instr.tres f).uses,
      block := fun s t => if s.tileQueued (gidOf t) n then some (.tileReg n) else none,
      cause := fun s t => if s.mayReserve (gidOf t) n (s.recordOf t f.a) then none else some (tileTrap n),
      act := fun _ c _ => c }
  LaneOp.exec { b with act := fun o c t => if b.top o t then c.setT (gidOf t) n (o.recordOf t f.a) else c } s
/-- TREL (R407). -/
def execTrel (f : AForm) (s : State) : Host.Outcome State Fault Refusal :=
  let n := tileNo f.res
  LaneOp.exec
    { uses := (Instr.trel f).uses,
      block := fun s t => if s.tileQueued (gidOf t) n then some (.tileReg n) else none,
      act := fun _ c t => c.setT (gidOf t) n 0 } s

/-- The barrier operand of an asynchronous operation. -/
def State.barrierVa (s : State) (f : AForm) (tid : Nat) : Option Nat := (s.opt64 tid f.b).map (· % vaMod)
/-- TLOAD as its lanes meet it: every earlier access first (R276, R408), the checks of R408, and the load under way. -/
def tloadOp (f : AForm) : LaneOp :=
  let n := tileNo f.res
  let src := fun (s : State) (t : Nat) => (s.src64 t f.a).toNat % vaMod
  { uses := (Instr.tload f).uses,
    block := fun s t => if s.storesPending t then some .stores else if s.fillsPending t then some .accesses else none,
    cause := fun s t =>
      let tl := s.tile (gidOf t) n
      firstTrap
        [(if s.emberBad tl && tl.v then some s.fieldTrap else none),
         (if tl.v then none else some (tileTrap n)),
         trapOf (s.scratchAt t (src s t) 64 false),
         (if !tl.v || s.inScratch t (src s t) (64 * tl.extu) false then none else some (accTrap .permLoad s.cur.pc false false (src s t))),
         (match s.barrierVa f t with | some v => trapOf (s.scratchAt t v 16 true) | none => none)],
    act := fun o c t =>
      let tl := o.tile (gidOf t) n
      match o.scratchAt t (src o t) 64 false with
      | .ok pa =>
        let x : TLoad := { tid := t, src := pa, base := 64 * tl.baseu, barrier := (o.barrierVa f t).map (unalias (some (coreOf (gidOf t)))),
                           left := [(0, 2 * tl.extu)] }
        if o.spanBreach t (src o t) (64 * tl.extu) || (match o.barrierVa f t with | some v => o.walkBreach t v | none => false) then
          c.consumeAt t
        else { c with tloads := c.tloads.put c.stamp x, stamp := c.stamp + 1 }
      | .error _ => c.consumeAt t }
/-- TLOAD (R408): with a barrier the thread goes on; without one it is suspended at the TLOAD until every byte has landed. -/
def execTload (f : AForm) (s : State) : Host.Outcome State Fault Refusal :=
  let op := tloadOp f
  if f.b.omitted && op.clean s then
    let acting := s.cur.lanes.filter (fun t => op.lane s t == .act)
    let s1 := op.begun s acting (op.act s)
    LaneOp.exec { op with block := fun o t => if acting.contains t then some .tload else op.block o t, act := fun _ c _ => c } s1
  else op.exec s

/-! ## Planes -/

/-- Partner width of a PW code (R333, R409), or the tile's own. -/
def partner (pw own : Nat) : Nat := match pw with | 1 => 4 | 2 => 8 | 3 => 16 | _ => own
/-- MLOADW with its offset (R251, R252, R409). -/
def mloadwOp (u : Uses) (f : AForm) (k0 : State → Nat → Nat) : LaneOp := LaneOp.queued <|
  let n := tileNo f.a
  let tl := fun (s : State) (t : Nat) => s.tile (gidOf t) n
  let el := fun (s : State) (t : Nat) => stepE (fmtBits (tl s t).fmt) (partner f.pw.toNat (fmtBits (tl s t).fmt))
  { uses := u,
    cause := fun s t =>
      let x := tl s t
      let span := el s t * 16 / x.n
      causes
        [(x.v && (badPair (fmtBits x.fmt) (partner f.pw.toNat (fmtBits x.fmt)) || s.emberBad x), s.fieldTrap),
         (s.noAccs t, planeTrap n),
         (!x.v || k0 s t % span != 0 || decide (x.k < k0 s t + span), tileTrap n)],
    act := fun o c t => c.queueMat f.h t [n] [(coreOf (gidOf t), .mloadw (o.getT (gidOf t) n) (k0 o t) (el o t))] }
/-- MLOADW (R409). -/
def execMloadw (f : AForm) (s : State) : Host.Outcome State Fault Refusal :=
  (mloadwOp (Instr.mloadw f).uses f (fun s t => (s.src32 t f.b).toNat)).exec s
/-- MLOADW, immediate form (R409). -/
def execMloadwI (f : AForm) (s : State) : Host.Outcome State Fault Refusal :=
  (mloadwOp (Instr.mloadwI f).uses f (fun _ _ => f.imm16.toNat)).exec s
/-- MSWAP (R409). -/
def execMswap (f : AForm) (s : State) : Host.Outcome State Fault Refusal :=
  (LaneOp.queued
    { uses := (Instr.mswap f).uses,
      cause := fun s t => if s.noAccs t then some (planeTrap 0) else none,
      act := fun _ c t => c.queueMat f.h t [] [(coreOf (gidOf t), .mswap)] }).exec s

/-! ## The product -/

/-- The block of an MMA as the issuing thread reads it. -/
def State.blockAt (s : State) (pa : Nat) : List Byte := s.load pa 64
/-- The group whose tile an issuer's own rows come from (R259): itself, or the peer in the first column of its row group. -/
def State.rowSource (s : State) (gid : Nat) (b : Block) : Option Nat :=
  if b.gang = [] then some gid
  else
    let peers := s.gangPeers gid b.gang
    peers.getD (peers.findIdx (· == some gid) % b.rg) none
/-- The checks of a block that has been read, after the operations that the lanes before it queue (R247, R255, R257, R258, log 20). Of the
tiles only that of the issuer's row source is looked at, if that group lives (R259). -/
def State.blockCause (s : State) (tid : Nat) (before : List MatOp) (b : Block) : Option TrapInfo :=
  let gid := gidOf tid
  let w := before.foldl (fun w op => s.aheadStep gid w goneGid op) (s.ahead gid)
  let r := (s.launchOf tid).record
  let src := s.rowSource gid b
  let t := s.tile (src.getD goneGid) b.atile
  let declared := b.atile < r.tregs && b.accs.all (· < r.accs)
  let pair := match w.active with
    | some (tag, _, e) => !t.v || ((stepE (fmtBits (tileOf tag).fmt) (fmtBits t.fmt) == e) && !badPair (fmtBits (tileOf tag).fmt) (fmtBits t.fmt))
    | none => true
  let span := match w.active with | some (tag, _, e) => e * 16 / (tileOf tag).n | none => 0
  let ember := s.emberBad t && t.v || (match w.active with | some (tag, _, _) => s.emberBad (tileOf tag) | none => false)
  causes
    [(!b.ok || !declared || !w.agrees b || !pair || !s.gangOk gid b || ember || (t.v && t.sparse != 0) ||
       (span != 0 && b.ak0 % span != 0), s.fieldTrap),
     (s.noAccs tid || w.active.isNone, planeTrap 0),
     (src.isSome && (!t.v || decide (t.k < b.ak0 + span) || decide (t.rows < b.arow0 + b.rows)), tileTrap b.atile)]
/-- The parts of an MMA, member by member (R258, R259): the queue's core and the operation; a member whose peer has ended is
named by the issuer's core and does nothing. -/
def State.mmaParts (s : State) (tid : Nat) (bytes : List Byte) : List (Nat × MatOp) :=
  let gid := gidOf tid
  let b := blockOf bytes
  match (s.ahead gid).active with
  | none => []
  | some (tag, _, e) =>
    let wf := (tileOf tag).fmt
    let af := (s.rowSource gid b).map (fun g => (s.tile g b.atile).fmt)
    if b.gang = [] then [(coreOf gid, .mma bytes (s.getT gid b.atile) gid gid e wf af)]
    else
      let peers := s.gangPeers gid b.gang
      peers.zipIdx.map (fun m =>
        let rows := (peers.getD (m.2 % b.rg) none).getD goneGid
        match m.1 with
        | some g => (coreOf g, .mma bytes (s.getT rows b.atile) g rows e wf af)
        | none => (coreOf gid, .mma bytes 0 goneGid goneGid e wf af))
/-- MMA (R255 to R259, R410). -/
def execMma (f : AForm) (s : State) : Host.Outcome State Fault Refusal :=
  let va := fun (s : State) (t : Nat) => (s.src64 t f.a).toNat % vaMod
  let parts := fun (s : State) (t : Nat) => match s.scratchAt t (va s t) 64 false with
    | .ok pa => (s.mmaParts t (s.blockAt pa)).map (·.1)
    | .error _ => []
  let base : LaneOp := LaneOp.queued
    { uses := (Instr.mma f).uses,
      block := fun s t => s.objWait t (va s t) 64,
      act := fun _ c _ => c } parts
  -- what the lanes before a lane queue (R255): those that act and meet no cause of their own
  let before := fun (s : State) (t : Nat) => ((s.cur.lanes.takeWhile (· != t)).filter (fun x => base.lane s x == .act)).foldl (fun ops x =>
    match s.scratchAt x (va s x) 64 false with
    | .ok pa =>
      if s.poisoned pa 64 || (s.blockCause x ops (blockOf (s.blockAt pa))).isSome then ops
      else ops ++ (s.mmaParts x (s.blockAt pa)).map (·.2)
    | .error _ => ops) []
  LaneOp.exec
    { base with
      cause := fun s t =>
        match s.scratchAt t (va s t) 64 false with
        | .error none => none
        | .error x => firstCause x (if s.noAccs t || (s.ahead (gidOf t)).active.isNone then some (planeTrap 0) else none)
        | .ok pa => if s.poisoned pa 64 then none else s.blockCause t (before s t) (blockOf (s.blockAt pa)),
      act := fun o c t =>
        match o.scratchAt t (va o t) 64 false with
        | .error _ => c.consumeAt t
        | .ok pa =>
          if o.poisoned pa 64 then c.consumeAt t
          else
            let bytes := o.blockAt pa
            c.queueMat f.h t [(blockOf bytes).atile] (o.mmaParts t bytes) } s

/-! ## Transform, reset, drains and reads -/

/-- MHAD with its n (R260, R411). -/
def mhadOp (u : Uses) (f : AForm) (n : State → Nat → Nat) : LaneOp := LaneOp.queued <|
  let d := tileNo f.res
  let a := tileNo f.a
  { uses := u,
    cause := fun s t =>
      let td := s.tile (gidOf t) d
      let ta := s.tile (gidOf t) a
      causes
        [(!([16, 32, 64] : List Nat).contains (n s t), s.fieldTrap),
         (!ta.v, tileTrap a),
         (!td.v || ta.sparse != 0 || td.sparse != 0 || ta.rows != td.rows || ta.k != td.k || ta.k % n s t != 0, tileTrap d)],
    act := fun o c t =>
      c.queueMat f.h t [d, a] [(coreOf (gidOf t), .mhad (o.getT (gidOf t) a) (o.getT (gidOf t) d) (n o t))] }
/-- MHAD (R411). -/
def execMhad (f : AForm) (s : State) : Host.Outcome State Fault Refusal :=
  (mhadOp (Instr.mhad f).uses f (fun s t => (s.src32 t f.b).toNat)).exec s
/-- MHAD, immediate form (R411). -/
def execMhadI (f : AForm) (s : State) : Host.Outcome State Fault Refusal :=
  (mhadOp (Instr.mhadI f).uses f (fun _ _ => f.imm16.toNat)).exec s

/-- MZERO (R254, R411). -/
def execMzero (f : AForm) (s : State) : Host.Outcome State Fault Refusal :=
  (LaneOp.queued
    { uses := (Instr.mzero f).uses,
      act := fun _ c t => c.queueMat f.h t [] [(coreOf (gidOf t), .mzero (accNo f.res))] }).exec s

/-- MDRAIN (R412): one that arms a token comes after an acquire of its thread (R197, R205). -/
def execMdrain (f : AForm) (s : State) : Host.Outcome State Fault Refusal :=
  let fmt := f.lo.toNat
  let dst := fun (s : State) (t : Nat) => (s.src64 t f.b).toNat % vaMod
  let first := fun (s : State) (t : Nat) => (s.src32 t f.c).toNat % 65536
  let count := fun (s : State) (t : Nat) => (s.src32 t f.c).toNat / 65536
  let own := fun (_ : State) (_ : Nat) => !([0, 1, 2, 3, 4, 9] : List Nat).contains fmt
  (LaneOp.queued
    { uses := (Instr.mdrain f).uses,
      own := own,
      block := fun s t => if f.h.arm then s.acqWait t else none,
      cause := fun s t =>
        causes
          [(decide (127 < first s t) || count s t == 0 || decide (128 < first s t + count s t) ||
             !s.inScratch t (dst s t) (256 * drainBytes fmt * count s t) true, s.fieldTrap),
           (dst s t % 32 != 0, accTrap .align s.cur.pc true false (dst s t))],
      act := fun o c t =>
        if o.spanBreach t (dst o t) (256 * drainBytes fmt * count o t) then c.consumeAt t
        else c.queueMat f.h t [] [(coreOf (gidOf t), .mdrain (accNo f.a) (unalias (some (coreOf (gidOf t))) (dst o t)) (first o t)
          (count o t) fmt f.sat)] }).exec s

/-- MREAD (R413): its four registers are empty until the queued read fills them. -/
def execMread (f : AForm) (s : State) : Host.Outcome State Fault Refusal :=
  (LaneOp.queued
    { uses := (Instr.mread f).uses,
      act := fun o c t =>
        let pos := (o.src32 t f.b).toNat
        let id := c.stamp
        (c.addFill { tid := t, dst := regsOf t f.res 4, flag := none, flagVal := 0, what := .mread }).queueMat f.h t []
          [(coreOf (gidOf t), .mread (accNo f.a) (pos % 128) (pos / 256 % 256) id)] }).exec s

end Sys2Proof.Machine
end

