-- ==== Sys2Proof/Machine/CopyOps.lean ====
section
/-! DEFINITION. Copy, barrier, token and tile-bit instructions, opcodes 0x200 to 0x24F (R414 to R421, R269 to R279). -/
namespace Sys2Proof.Machine

/-- A virtual address in an operand. -/
def State.vaOf (s : State) (tid : Nat) (o : Operand) : Nat := (s.src64 tid o).toNat % vaMod
/-- An address as the core of a thread names it to everyone (R174). -/
def State.flatOf (_ : State) (tid va : Nat) : Nat := unalias (some (coreOf (gidOf tid))) va

/-! ## COPY and GCOPY -/

/-- The checks of R269 on a record and a slice word. -/
def State.layoutOk (_ : State) (tid : Nat) (gather : Bool) (y : Layout) (first count : Nat) : Bool :=
  let last := y.ext.getD (y.ndim - 1) 0
  y.ok && first + count ≤ last && (y.ndim != 1 || !y.four || (first % y.l == 0 && count % y.l == 0)) &&
  (if gather then y.ndim == 2 && y.idx != 0 else y.idx == 0) &&
  (y.toTile || isFlat (unalias (some (coreOf (gidOf tid))) y.dst))
/-- The open collective that a group joins with a handle: the earliest of its workgroup that it has not supplied (R270). -/
def State.openColl (s : State) (gid handle : Nat) : Option (Nat × Coll) :=
  let g := s.group gid
  let r := (s.launch g.launch).record
  s.colls.find? (fun e => !e.2.started && e.2.launch == g.launch && e.2.wg == r.inst g r.wgLevel && e.2.handle == handle &&
    e.2.slices.all (fun x => x.gid != gid))
/-- Collectives that hold a slot of a core, and its lowest free slot (R273). -/
def State.slotsHeld (s : State) (core : Nat) : List Nat := (s.colls.filter (fun e => e.2.core == core)).map (·.2.slot)
def State.freeSlot (s : State) (core : Nat) : Nat := ((upTo 128).find? (fun n => !(s.slotsHeld core).contains n)).getD 0

/-- A group supplies its slice (R270, R276): it joins or opens a collective; an armed token is armed for the supplier. -/
def State.supply (s : State) (h : Header) (tid handle first count : Nat) (barrier : Option Nat) (gather : Bool)
    (record : List Byte) : State :=
  let gid := gidOf tid
  let g := s.group gid
  let r := (s.launch g.launch).record
  let s := if h.arm then s.arm tid h.atok.toNat else s
  let slice := fun (y : Layout) =>
    ({ gid := gid, tid := tid, first := first, count := count, barrier := barrier, tok := if h.arm then some h.atok.toNat else none,
       at' := s.stamp, left := let u := y.range first count; if u.1 < u.2 then [u] else [] } : CSlice)
  let s' := { s with stamp := s.stamp + 1 }
  match s.openColl gid handle with
  | some (id, c) => s'.setColl id { c with slices := c.slices ++ [slice (layoutOf c.record)] }
  | none =>
    s'.setColl s.stamp
      { core := coreOf gid, slot := s.freeSlot (coreOf gid), space := g.space, launch := g.launch, wg := r.inst g r.wgLevel,
        handle := handle, gather := gather, record := record, slices := [slice (layoutOf record)] }

/-- COPY or GCOPY (R269 to R273, R414): every acting lane checks, the highest supplies. -/
def copyOp (u : Uses) (f : AForm) (gather : Bool) : LaneOp :=
  let base : LaneOp :=
    { uses := u, block := fun s t => s.objWait t (s.vaOf t f.a) 64, act := fun _ c _ => c }
  let handle := fun (s : State) (t : Nat) => s.flatOf t (s.vaOf t f.a)
  let record := fun (s : State) (t : Nat) => s.scratchAt t (s.vaOf t f.a) 64 false
  let word := fun (s : State) (t : Nat) => (s.src32 t f.c).toNat
  -- the groups that would open a collective, each with what names it; a group that finds it open joins (R273)
  let opens := fun (s : State) => (s.cur.lanes.filter (fun x => base.top s x && (s.openColl (gidOf x) (handle s x)).isNone)).map (fun x =>
    let g := s.group (gidOf x)
    let r := (s.launch g.launch).record
    (gidOf x, (g.launch, r.inst g r.wgLevel, handle s x)))
  let noSlot : State → Nat → Bool := fun s t => match (opens s).find? (fun x => x.1 == gidOf t) with
    | none => false
    | some x => decide (128 ≤ (s.slotsHeld (coreOf (gidOf t))).length + (((opens s).map (·.2)).eraseDups.takeWhile (· != x.2)).length)
  { base with
    block := fun s t => (base.block s t).or
      (match noSlot s t with | true => some (.pipe 3) | false => none),
    cause := fun s t =>
      firstTrap
        [trapOf (record s t),
         (match s.barrierVa f t with | some v => trapOf (s.scratchAt t v 16 true) | none => none),
         (match record s t with
          | .ok pa =>
            if s.poisoned pa 64 || s.layoutOk t gather (layoutOf (s.load pa 64)) (word s t % 65536) (word s t / 65536) then none
            else some s.fieldTrap
          | .error _ => none)],
    act := fun o c t =>
      match record o t with
      | .error _ => c.consumeAt t
      | .ok pa =>
        if o.poisoned pa 64 || (match o.barrierVa f t with | some v => o.walkBreach t v | none => false) then c.consumeAt t
        else if base.top o t then
          c.supply f.h t (handle o t) (word o t % 65536) (word o t / 65536) ((o.barrierVa f t).map (o.flatOf t)) gather (o.load pa 64)
        else c }
/-- COPY (R269 to R271, R414). -/
def execCopy (f : AForm) (s : State) : Host.Outcome State Fault Refusal := (copyOp (Instr.copy f).uses f false).exec s
/-- GCOPY (R272, R414). -/
def execGcopy (f : AForm) (s : State) : Host.Outcome State Fault Refusal := (copyOp (Instr.gcopy f).uses f true).exec s

/-- ELEMENT_LANDING of a TLOAD (R408): sector `k` lands and is counted; when all have landed, a thread suspended there goes
on. -/
def State.landTload (s : State) (id k : Nat) (x : TLoad) : State :=
  if !inRanges k x.left then s
  else if s.poisoned (x.src + 32 * k) 32 then ({ s with tloads := s.tloads.erase id }).consumeAt x.tid
  else
    let gid := gidOf x.tid
    let s1 := (s.load (x.src + 32 * k) 32).zipIdx.foldl (fun s b => s.setOpByte gid (x.base + 32 * k + b.2) b.1.toNat) s
    let left := rangesDel k x.left
    let s2 := { s1 with tloads := if left = [] then s1.tloads.erase id else s1.tloads.put id { x with left := left } }
    let s3 := s2.landOn (s.group gid).launch (coreOf gid) x.barrier 32
    if left ≠ [] then s3
    else
      let s4 := if (s3.thread x.tid).st == TState.waiting .tload then s3.retireAt x.tid else s3
      s4.endGroup gid
/-- ELEMENT_LANDING (R271, R408): a sector part of a collective or of a TLOAD lands. -/
def execElementLanding (id k : Nat) (s : State) : Host.Outcome State Fault Refusal :=
  match s.tloads.find id with
  | some x => .next (s.landTload id k x)
  | none => .next (s.landColl id k)

/-! ## Barrier objects (R415, R416) -/

/-- BINIT with its arrivals (R275, R415). -/
def binitOp (u : Uses) (f : AForm) (n : State → Nat → Nat) : LaneOp :=
  { uses := u,
    block := fun s t => s.objWait t (s.vaOf t f.a) 16,
    cause := fun s t =>
      firstTrap [(if n s t = 0 ∨ 65535 < n s t then some s.fieldTrap else none), trapOf (s.scratchAt t (s.vaOf t f.a) 16 true)],
    act := fun o c t =>
      match o.scratchAt t (o.vaOf t f.a) 16 true with
      | .ok pa => c.setBarrier pa (Barrier.init (n o t) f.lo.toNat)
      | .error _ => c.consumeAt t }
/-- BINIT (R415). -/
def execBinit (f : AForm) (s : State) : Host.Outcome State Fault Refusal :=
  (binitOp (Instr.binit f).uses f (fun s t => (s.src32 t f.b).toNat)).exec s
/-- BINIT, immediate form (R415). -/
def execBinitI (f : AForm) (s : State) : Host.Outcome State Fault Refusal :=
  (binitOp (Instr.binitI f).uses f (fun _ _ => f.imm16.toNat)).exec s

/-- ARRIVE with its expected bytes (R275, R415): a release at the object's scope, demoted under R210. -/
def arriveOp (u : Uses) (f : AForm) (n : State → Nat → Nat) : LaneOp :=
  { uses := u,
    block := fun s t => (s.ordWait t 2).or (s.objWait t (s.vaOf t f.a) 16),
    cause := fun s t =>
      firstTrap [(if 2 ^ 31 ≤ n s t then some s.fieldTrap else none), trapOf (s.scratchAt t (s.vaOf t f.a) 16 true)],
    act := fun o c t =>
      match o.scratchAt t (o.vaOf t f.a) 16 true with
      | .ok pa =>
        if c.poisoned pa 16 then c.consumeAt t
        else
          let b := c.barrierAt pa
          (c.setBarrier pa (b.arrive (n o t))).ceil t b.scope
      | .error _ => c.consumeAt t }
/-- ARRIVE (R415). -/
def execArrive (f : AForm) (s : State) : Host.Outcome State Fault Refusal :=
  (arriveOp (Instr.arrive f).uses f (fun s t => (s.src32 t f.b).toNat)).exec s
/-- ARRIVE, immediate form (R415). -/
def execArriveI (f : AForm) (s : State) : Host.Outcome State Fault Refusal :=
  (arriveOp (Instr.arriveI f).uses f (fun _ _ => f.imm16.toNat)).exec s

/-- WAITPHASE past a phase (R416): suspended while the object's PHASE is `k`. -/
def waitphaseOp (u : Uses) (f : AForm) (k : State → Nat → Nat) : LaneOp :=
  { uses := u,
    block := fun s t => (s.objWait t (s.vaOf t f.a) 16).or
      (match s.scratchAt t (s.vaOf t f.a) 16 false with
        | .ok pa => if !s.poisoned pa 16 && (s.barrierAt pa).phase == k s t then some (.phase pa (k s t)) else none
        | .error _ => none),
    cause := fun s t => trapOf (s.scratchAt t (s.vaOf t f.a) 16 false),
    act := fun o c t =>
      match o.scratchAt t (o.vaOf t f.a) 16 false with
      | .ok pa => if o.poisoned pa 16 then c.consumeAt t else c
      | .error _ => c.consumeAt t }
/-- WAITPHASE (R416). -/
def execWaitphase (f : AForm) (s : State) : Host.Outcome State Fault Refusal :=
  (waitphaseOp (Instr.waitphase f).uses f (fun s t => (s.src32 t f.b).toNat)).exec s
/-- WAITPHASE, immediate form (R416). -/
def execWaitphaseI (f : AForm) (s : State) : Host.Outcome State Fault Refusal :=
  (waitphaseOp (Instr.waitphaseI f).uses f (fun _ _ => f.imm16.toNat)).exec s

/-- TESTPHASE (R416). -/
def testphaseOp (u : Uses) (f : AForm) (k : State → Nat → Nat) : LaneOp :=
  { uses := u,
    block := fun s t => s.objWait t (s.vaOf t f.a) 16,
    cause := fun s t => trapOf (s.scratchAt t (s.vaOf t f.a) 16 false),
    act := fun o c t =>
      match o.scratchAt t (o.vaOf t f.a) 16 false with
      | .ok pa => if o.poisoned pa 16 then c.consumeAt t else c.wrTest t f.res ((o.barrierAt pa).phase != k o t)
      | .error _ => c.consumeAt t }
/-- TESTPHASE (R416). -/
def execTestphase (f : AForm) (s : State) : Host.Outcome State Fault Refusal :=
  (testphaseOp (Instr.testphase f).uses f (fun s t => (s.src32 t f.b).toNat)).exec s
/-- TESTPHASE, immediate form (R416). -/
def execTestphaseI (f : AForm) (s : State) : Host.Outcome State Fault Refusal :=
  (testphaseOp (Instr.testphaseI f).uses f (fun _ _ => f.imm16.toNat)).exec s

/-! ## Tokens (R417) -/

/-- TOKWAIT (R417): waits like a wait mask, or reports idle tokens. -/
def execTokwait (f : AForm) (s : State) : Host.Outcome State Fault Refusal :=
  let m := fun (s : State) (t : Nat) => (s.src32 t f.b).truncate 8
  LaneOp.exec
    { uses := (Instr.tokwait f).uses,
      block := fun s t =>
        if !f.poll && (s.group (gidOf t)).pending (m s t) then some (.tokens (m s t)) else none,
      act := fun o c t =>
        if f.poll then
          c.wr32 t f.res (BitVec.ofNat 32 ((upTo 8).foldl (fun a k => a + (if ((o.group (gidOf t)).token k).ops = 0 then 2 ^ k else 0)) 0))
        else c } s

/-! ## Full/empty bits of tiles (R418, R419) -/

/-- A tile reference in an operand (R128): bytes, and its address. -/
def refSize (x : Nat) : Nat := 256 * 2 ^ (x / 2 ^ 56 % 16)
/-- The checks of R418: the physical address of the tile. -/
def State.refAt (s : State) (tid x : Nat) (write : Bool) : Except (Option TrapInfo) Nat :=
  let va := x % vaMod
  if x / 2 ^ 60 % 8 ≠ 0 ∨ 8 < x / 2 ^ 56 % 16 then .error (some s.fieldTrap)
  else s.scratchAt tid va (refSize x) write
/-- TFILL or TEMPTY (R418): a release at device scope that sets every unit's bit. -/
def tbitOp (u : Uses) (f : AForm) (full : Bool) : LaneOp :=
  let ref := fun (s : State) (t : Nat) => (s.src64 t f.a).toNat
  { uses := u,
    block := fun s t => s.ordWait t 2,
    cause := fun s t => trapOf (s.refAt t (ref s t) true),
    act := fun o c t =>
      match o.refAt t (ref o t) true with
      | .ok pa => c.setUnits pa (refSize (ref o t)) full
      | .error _ => c.consumeAt t }
/-- TFILL (R418). -/
def execTfill (f : AForm) (s : State) : Host.Outcome State Fault Refusal := (tbitOp (Instr.tfill f).uses f true).exec s
/-- TEMPTY (R418). -/
def execTempty (f : AForm) (s : State) : Host.Outcome State Fault Refusal := (tbitOp (Instr.tempty f).uses f false).exec s

/-- The first unit of a tile that is not in the wanted state. -/
def State.unitNot (s : State) (pa n : Nat) (full : Bool) : Option Nat :=
  ((upTo (n / 256)).map (fun i => pa / 256 + i)).find? (fun u => s.fullUnits.contains u != full)
/-- TWAIT (R419): bit 63 of the reference asks for empty. -/
def execTwait (f : AForm) (s : State) : Host.Outcome State Fault Refusal :=
  let ref := fun (s : State) (t : Nat) => (s.src64 t f.a).toNat
  let full := fun (s : State) (t : Nat) => ref s t / 2 ^ 63 == 0
  let short := fun (s : State) (t : Nat) => match s.refAt t (ref s t) false with
    | .ok pa => s.unitNot pa (refSize (ref s t)) (full s t)
    | .error _ => none
  LaneOp.exec
    { uses := (Instr.twait f).uses,
      block := fun s t => (s.acqWait t).or
        (if f.poll then none else (short s t).map (fun u => .tile u (full s t))),
      cause := fun s t => trapOf (s.refAt t (ref s t) false),
      act := fun o c t =>
        if (match o.refAt t (ref o t) false with | .error _ => true | .ok _ => false) then c.consumeAt t
        else if f.poll then c.wrTest t f.res (short o t).isNone else c } s

/-! ## Copy reports (R279, R420) -/

/-- CRETRY (R279, R420). -/
def execCretry (f : AForm) (s : State) : Host.Outcome State Fault Refusal :=
  LaneOp.exec { uses := (Instr.cretry f).uses, act := fun o c t => c.retryReport t (o.src64 t f.a).toNat } s
/-- CSKIP (R279, R420). -/
def execCskip (f : AForm) (s : State) : Host.Outcome State Fault Refusal :=
  LaneOp.exec { uses := (Instr.cskip f).uses, act := fun o c t => c.skipReport t (o.src64 t f.a).toNat } s

end Sys2Proof.Machine
end

