-- ==== Sys2Proof/Machine/Pins.lean ====
section
/-! DEFINITION. Pins, searches and the deferred-reclaim list (R213 to R227), SNAP and SNAPQ (R183, R400, R401), opcodes 0x1B0
to 0x1B5, and the events of searches. -/
namespace Sys2Proof.Machine

/-- Pins of a name of a space, in comparators and directory, by the keys of their registers (R223). -/
def State.pinKeys (s : State) (space name : Nat) : List Nat :=
  ((s.pinreg ++ s.pinDir).filter (fun e => (s.group (e.1 / 8)).space == space && pinV e.2 && pinName e.2 == name)).map (·.1)
/-- What a search finds when it ends (R223): the pins that stood when it began, dropped in the meantime or not, and those that stand. -/
def State.searchFinds (s : State) (q : Search) : Nat := (q.pins ++ s.pinKeys q.space q.name).eraseDups.length

/-- Publishes a name in a pin register (R217): the old name is dropped after. -/
def State.setPinName (s : State) (gid n name : Nat) : State :=
  let old := s.getPin gid n
  if pinV old ∧ pinName old = name then s
  else
    let s := s.setPin gid n (BitVec.ofNat 64 (2 ^ 63 + name))
    if pinV old then s.pinDropped (s.group gid).space (pinName old) else s
/-- Withdraws a pin (R218): NAME stays. -/
def State.clearPin (s : State) (gid n : Nat) : State :=
  let old := s.getPin gid n
  if pinV old then (s.setPin gid n (old &&& 0x7FFFFFFFFFFFFFFF)).pinDropped (s.group gid).space (pinName old) else s

def pinNo (o : Operand) : Nat := match o with | .pin n => n.toNat | _ => 0
/-- The object name of a lane (R213). -/
def State.nameOf (s : State) (f : VForm) (tid : Nat) : Nat := (s.src64 tid f.a).toNat % 2 ^ 48

/-- What the lanes of a group wait for together before a pin is dropped: the earlier accesses of each of them (R208, R218). -/
def LaneOp.release (op : LaneOp) (s : State) (tid : Nat) : Option Wait :=
  let ts := op.mates s tid
  if ts.any (fun t => s.storesPending t || s.fillsPending t) then some (.released ts) else none
/-- PIN (R217): once for each group, with the name of its highest acting lane; where it replaces a name, it waits as the drop does. -/
def execPin (f : VForm) (s : State) : Host.Outcome State Fault Refusal :=
  let b : LaneOp := { uses := (Instr.pin f).uses, act := fun _ c _ => c }
  let replaces := fun (s : State) (t : Nat) =>
    let old := s.getPin (gidOf t) (pinNo f.d)
    pinV old && (match (b.mates s t).getLast? with | some x => pinName old != s.nameOf f x | none => false)
  LaneOp.exec { b with
                block := fun s t => if replaces s t then b.release s t else none,
                act := fun o c t => if b.top o t then c.setPinName (gidOf t) (pinNo f.d) (o.nameOf f t) else c } s
/-- UNPIN (R218): once for each group, after every earlier access of each acting thread. -/
def execUnpin (f : VForm) (s : State) : Host.Outcome State Fault Refusal :=
  let b : LaneOp := { uses := (Instr.unpin f).uses, act := fun _ c _ => c }
  LaneOp.exec { b with
                block := fun s t => b.release s t,
                act := fun o c t => if b.top o t then c.clearPin (gidOf t) (pinNo f.d) else c } s

/-- Searches in flight of a core's threads (R224). -/
def State.coreSearches (s : State) (core : Nat) : Nat :=
  (s.searches.filter (fun e => e.2.core == core && e.2.first)).length

/-- A RECLAIM request of a thread for a name (R220): JOINED, FULL, or a search whose result fills the thread's register. -/
def State.reclaimStart (s : State) (tid name : Nat) (f : Fill) : State :=
  let space := s.spaceOf tid
  let l := s.launchOf tid
  let p := s.part space
  let answer := fun (s : State) (code : Nat) => s.addFill { f with what := .value code }
  match p.reclaims.find name with
  | some e =>
    answer (if e.creator = l.seq then s
      else s.setPart space { p with reclaims := p.reclaims.put name { e with joined := true } }) 2
  | none =>
    if 4096 ≤ p.reclaims.length then answer s 3
    else
      let s := (s.setPart space { p with reclaims := p.reclaims.put name { creator := l.seq, die := l.die, running := true } }).bump 5 space 0 1
      let id := s.stamp
      let s := s.addFill { f with what := .reclaim name }
      { s with searches := s.searches.put id { space := space, name := name, core := coreOf (gidOf tid), fills := [id],
                                               pins := s.pinKeys space name } }

/-- Whether a RECLAIM of a name starts a search (R220). -/
def State.newName (s : State) (space name : Nat) : Bool :=
  ((s.part space).reclaims.find name).isNone && (s.part space).reclaims.length < 4096
/-- RECLAIM as its lanes meet it (R208, R219, R224): after an acquire, after the stores of every thread that supplies the name, which share
one request, and within the searches of its core. -/
def reclaimOp (f : VForm) : LaneOp :=
  let b : LaneOp := { uses := (Instr.reclaim f).uses, act := fun _ c _ => c }
  let late := fun (s : State) (t : Nat) => (s.acqWait t).isSome || s.storesPending t
  let sharers := fun (s : State) (t : Nat) => s.cur.lanes.filter (fun x => b.lane s x == .act && s.nameOf f x == s.nameOf f t)
  { b with
    block := fun s t =>
      let ts := sharers s t
      if ts.any (late s) then some (if ts = [t] then (s.acqWait t).getD .stores else .released ts)
      else
        let starts := s.cur.lanes.filter (fun x => b.lane s x == .act && s.newName (s.spaceOf x) (s.nameOf f x) && !(sharers s x).any (late s))
        let names := (starts.map (s.nameOf f)).eraseDups
        let before := (names.takeWhile (· != s.nameOf f t)).length
        if names.contains (s.nameOf f t) ∧ 64 ≤ s.coreSearches (coreOf (gidOf t)) + before then some (.pipe 5) else none }
/-- RECLAIM (R219, R220, R224): lanes that supply one name share the request of the lowest of them; its result is an acquire. -/
def execReclaim (f : VForm) (s : State) : Host.Outcome State Fault Refusal :=
  let b := reclaimOp f
  let acting := fun (o : State) => o.cur.lanes.filter (fun t => b.lane o t == .act)
  LaneOp.exec
    { b with
      act := fun o c t =>
        let name := o.nameOf f t
        let fill : Fill := { tid := t, dst := regsOf t f.d 1, flag := none, flagVal := 0, what := .value 0, acq := true,
                             inst := o.cur.serial }
        match (acting o).find? (fun x => o.nameOf f x == name) with
        | some x =>
          if x = t then c.reclaimStart t name fill
          else
            -- the lower lane's request: the newest fill of its destination
            match (c.fills.filter (fun e => e.2.tid == x && e.2.dst == regsOf x f.d 1)).getLast? with
            | some (id, fl) =>
              let me := c.stamp
              let c := c.addFill { fill with what := fl.what }
              { c with searches := Tab.mapVals c.searches (fun q => if q.fills.contains id then { q with fills := q.fills ++ [me] } else q) }
            | none => c
        | none => c } s

/-- A completion record (R221). -/
def Reclaim.bytes (s : State) (e : Reclaim) (name : Nat) : List Byte :=
  toLE 8 name ++ toLE 1 0 ++ toLE 1 (bit e.joined) ++ toLE 2 e.found ++ toLE 4 0 ++ toLE 8 e.creator ++ toLE 8 (s.ref e.die).toNat
/-- Posts the completion record of a complete entry, if its queue has room (R220, R221), and not in a reset or a migration (R227). -/
def State.postReclaim (s : State) (space name : Nat) : State :=
  let p := s.part space
  match p.reclaims.find name, s.kindQueue space 4 with
  | some e, some (h, _) =>
    if !e.complete || p.sealed || p.frozen then s
    else match s.append space h (Reclaim.bytes s e name) with
      | some s =>
        let p := s.part space
        (s.setPart space { p with reclaims := p.reclaims.erase name }).bump 5 space 2 1
      | none => s
  | _, _ => s

/-- Fills the registers of a search's threads with its result; a group whose threads have all exited may end with it (R227). -/
def State.fillSearch (s : State) (ids : List Nat) (x : Nat) : State :=
  ids.foldl (fun s id => match s.fills.find id with
    | some f => (({ s with fills := s.fills.erase id }).fillRegs f 4 x).endGroup (gidOf f.tid)
    | none => s) s

/-- PIN_SEARCH_DONE (R220, R223): a first search answers its RECLAIM; a re-search that finds no pin completes the entry. -/
def execPinSearchDone (id : Nat) (s : State) : Host.Outcome State Fault Refusal :=
  match s.searches.find id with
  | none => .next s
  | some q =>
    let s := { s with searches := s.searches.erase id }
    let m := s.searchFinds q
    let p := s.part q.space
    let put := fun (s : State) (f : Reclaim → Reclaim) => s.setPart q.space { p with reclaims := p.reclaims.upd q.name f }
    if !q.first then
      if m = 0 then .next ((put s (fun e => { e with running := false, complete := true })).postReclaim q.space q.name)
      else .next (put s (fun e => { e with running := false }))
    else if m = 0 then .next ((s.setPart q.space { p with reclaims := p.reclaims.erase q.name }).fillSearch q.fills 0)
    else
      .next (((put s (fun e => { e with running := false, found := min 65535 m })).bump 5 q.space 1 1).fillSearch q.fills
        (min 65535 m * 65536 + 1))

/-- RECLAIM_RESEARCH (R220): an entry with REDO set and no search running is searched again, but not in a reset or a freeze (R227). -/
def execReclaimResearch (space name : Nat) (s : State) : Host.Outcome State Fault Refusal :=
  let p := s.part space
  match p.reclaims.find name with
  | some e =>
    if e.redo && !e.running && !e.complete && !p.sealed && !p.frozen then
      let s := (s.setPart space { p with reclaims := p.reclaims.put name { e with redo := false, running := true } }).bump 5 space 0 1
      let q : Search := { space := space, name := name, core := 0, fills := [], first := false, pins := s.pinKeys space name }
      .next { s with searches := s.searches.put s.stamp q, stamp := s.stamp + 1 }
    else .next s
  | none => .next s

/-- RECLAIM_COMPLETION_POST (R220, R221). -/
def execReclaimCompletionPost (space name : Nat) (s : State) : Host.Outcome State Fault Refusal := .next (s.postReclaim space name)

/-- The oldest unclaimed record of the reclaim queue, taken and released in one act (R106, R222). -/
def State.takeRecord (s : State) (space : Nat) : Option (List Byte × State) :=
  match s.kindQueue space 4 with
  | none => none
  | some (h, q) =>
    if q.nextClaim = q.tail then none
    else
      let bs := s.loadVa space (q.entryVa q.nextClaim) 32
      some (bs, (s.setQueue space h { q with nextClaim := (q.nextClaim + 1) % 2 ^ 32 }).release space { handle := h, entry := q.nextClaim })
/-- Records of the reclaim queue that are not claimed. -/
def State.freeRecords (s : State) (space : Nat) : Nat :=
  match s.kindQueue space 4 with | some (_, q) => (q.tail + 2 ^ 32 - q.nextClaim) % 2 ^ 32 | none => 0

/-- Whether the record that a RECLWAIT would take cannot be read (R295). -/
def State.recordPoisoned (s : State) (space : Nat) : Bool :=
  match s.kindQueue space 4 with
  | some (_, q) => q.nextClaim != q.tail && s.vaPoisoned space (q.entryVa q.nextClaim) 32
  | none => false
/-- RECLWAIT (R222): lanes claim records in ascending order; without POLL a lane that finds none is suspended. A reclaim queue whose
pages cannot be used kills the group that needs it (R289). -/
def execReclwait (f : VForm) (s : State) : Host.Outcome State Fault Refusal :=
  let b : LaneOp := { uses := (Instr.reclwait f).uses, block := fun s t => s.acqWait t, act := fun _ c _ => c }
  LaneOp.exec
    { b with
      block := fun s t => (b.block s t).or (
        let before := (s.cur.lanes.takeWhile (· != t)).filter (fun x => b.lane s x == .act)
        if f.sel = 0 ∧ s.freeRecords (s.spaceOf t) ≤ before.length then some .reclaim else none),
      act := fun _ c t =>
        let c := c.needQueue (gidOf t) 4
        if (c.threads.find t).isNone then c
        else if c.recordPoisoned (c.spaceOf t) then c.consumeAt t
        else match c.takeRecord (c.spaceOf t) with
          | some (bs, c) => (c.wrData t f.d 32 (leNat bs)).wr32 t f.a 0
          | none => (c.wrData t f.d 32 0).wr32 t f.a 1 } s

/-! ## Generations -/

/-- The generation-state word (R182). -/
def genWord (serial : Nat) (g : Option Gen) : Nat :=
  match g with
  | some g => serial * 2 ^ 32 + (if g.state = 4 then 0 else g.num * 256) + g.state
  | none => serial * 2 ^ 32
/-- The serial of the current generation (R181). -/
def Part.curSerial (p : Part) : Nat := match p.gens.find? (fun e => e.2.state == 1) with | some e => e.1 | none => 0

/-- Closes the current generation as a snapshot and opens the next (R183, R184); with 16 live generations it opens nothing.
In Ember mode the snapshot holds no granule (R190). -/
def State.snapshot (s : State) (space : Nat) : Nat × State :=
  let p := s.part space
  let c := p.curSerial
  let g := p.gens.getD c { num := 0, state := 1 }
  if 16 ≤ p.liveGens then (c * 2 ^ 32 + g.num * 256 + 7, s)
  else
    let held : Gen := { g with state := 2, shared := if s.pkg.stage < 3 then [] else s.dramPages space }
    let gens := (p.gens.put c held).put p.nextSerial { num := p.freeNum, state := 1 }
    (genWord c (some held), s.setPart space { p with gens := gens, nextSerial := p.nextSerial + 1 })

/-- The lanes that share a SNAP: those that act in it (R400). -/
def State.snapLanes (s : State) (f : VForm) : List Nat :=
  s.cur.lanes.filter (fun t => LaneOp.lane { uses := (Instr.snap f).uses, act := fun _ c _ => c } s t == .act)
/-- SNAP (R183, R400): its lanes wait together until the earlier accesses of each are performed; then they share one snapshot, and their
launches lose their replayability. -/
def execSnap (f : VForm) (s : State) : Host.Outcome State Fault Refusal :=
  LaneOp.exec
    { uses := (Instr.snap f).uses,
      block := fun s _ =>
        let ts := s.snapLanes f
        if ts.any (fun t => (s.ordWait t 3).isSome) then some (.snap ts) else none,
      act := fun o c t =>
        let ts := o.snapLanes f
        if ts.head? = some t then
          let c := ts.foldl (fun c x => c.loseReplay (c.group (gidOf x)).launch) c
          let r := c.snapshot (c.spaceOf t)
          ts.foldl (fun c x => c.wr64 x f.d (BitVec.ofNat 64 r.1)) r.2
        else c } s
/-- SNAPQ (R401): the generation-state word of a serial. -/
def execSnapq (f : VForm) (s : State) : Host.Outcome State Fault Refusal :=
  LaneOp.exec
    { uses := (Instr.snapq f).uses,
      act := fun o c t =>
        let serial := (o.src32 t f.a).toNat
        c.wr64 t f.d (BitVec.ofNat 64 (genWord serial ((o.part (o.spaceOf t)).gens.find serial))) } s

end Sys2Proof.Machine
end

