-- ==== Sys2Proof/Machine/System.lean ====
section
/-! DEFINITION. System instructions, opcodes 0x300 to 0x307 (R423 to R431), with the reports and calls they wait for: the
call record (R79), its post (R82) and its reply (R80), and the attestation report (R70). -/
namespace Sys2Proof.Machine

/-! ## Special registers (R423 to R426) -/

/-- AUTH (R50). -/
def authWord (space : Nat) : Nat := if space = 64 then 2 else 1 + 4 * space
/-- The value of a special register for a thread (R423), apart from the long-latency ones. -/
def State.special (s : State) (tid n : Nat) : Nat :=
  let gid := gidOf tid
  let g := s.group gid
  let t := s.thread tid
  let core := coreOf gid
  match n with
  | 0x000 => g.laneBase + level0 tid
  | 0x001 => level0 tid + g.width * g.gidx
  | 0x002 => gid % 512
  | 0x003 => g.width
  | 0x008 => level0 tid
  | 0x009 => g.level 1
  | 0x00A => g.level 2
  | 0x00B => g.level 3
  | 0x00C => g.level 4
  | 0x00D => g.level 5
  | 0x00E => g.level 6
  | 0x00F => g.level 7
  | 0x010 => core % 64
  | 0x011 => core % 64 / 8
  | 0x012 => dieOf core
  | 0x013 => g.space
  | 0x014 => authWord g.space
  | 0x018 => g.cycle.toNat
  | 0x019 => g.gtime.toNat
  | 0x01A => g.stolen.toNat
  | 0x01B => (s.ref (dieOf core)).toNat
  | 0x020 => t.trapCause.toNat
  | 0x021 => t.trapPc.toNat
  | 0x022 => t.info0.toNat
  | 0x023 => t.info1.toNat
  | 0x024 => t.info2.toNat
  | 0x025 => t.info3.toNat
  | 0x026 => t.trapStatus
  | 0x028 => (s.pathsig gid).toNat
  | 0x029 => let p := s.part g.space; p.curSerial * 2 ^ 32 + p.curGen
  | 0x02A => g.budget
  | 0x02B => g.scrBase.toNat
  | _ => 0

/-- GETSR (R425): GTIME, STOLEN and PATHSIG mark the destination empty. -/
def execGetsr (f : IForm) (s : State) : Host.Outcome State Fault Refusal :=
  let n := f.imm.toNat
  let wide := srWidth n == some 64
  let b : LaneOp := { uses := (Instr.getsr f).uses, act := fun _ c _ => c }
  LaneOp.exec
    { b with
      act := fun o c t =>
        let fill := fun (w : FillWhat) =>
          if f.d.isG && !b.top o t then c
          else c.addFill { tid := t, dst := regsOf t f.d 2, flag := none, flagVal := 0, what := w }
        match n with
        | 0x019 => fill (.time 0)
        | 0x01A => fill (.time 1)
        | 0x028 => fill (.value (c.pathsig (gidOf t)).toNat)
        | _ => c.wrW wide t f.d (o.special t n) } s

/-- SETSR (R286, R426): a sticky bit of TRAPSTATUS written as 0 is cleared; every other write is ignored. -/
def execSetsr (f : IForm) (s : State) : Host.Outcome State Fault Refusal :=
  LaneOp.exec
    { uses := (Instr.setsr f).uses,
      act := fun o c t =>
        if f.imm = 0x026 then
          let x := o.src32 t f.a
          c.updThread t (fun h => { h with paramBound := h.paramBound && x.getLsbD 0, ceiling := h.ceiling && x.getLsbD 1 })
        else c } s

/-! ## Counters (R427) -/

/-- CNTRD with its counter number; a uniform destination takes the highest acting lane's (R158). -/
def cntrdOp (u : Uses) (d : Operand) (n : State → Nat → Nat) : LaneOp :=
  let b : LaneOp := { uses := u, act := fun _ c _ => c }
  { b with
    act := fun o c t =>
      if d.isG && !b.top o t then c
      else c.addFill { tid := t, dst := regsOf t d 2, flag := none, flagVal := 0, what := .ctr (n o t) (o.group (gidOf t)).launch } }
/-- CNTRD (R427). -/
def execCntrd (f : VForm) (s : State) : Host.Outcome State Fault Refusal :=
  (cntrdOp (Instr.cntrd f).uses f.d (fun s t => (s.src32 t f.a).toNat)).exec s
/-- CNTRD, immediate form (R427). -/
def execCntrdI (f : IForm) (s : State) : Host.Outcome State Fault Refusal :=
  (cntrdOp (Instr.cntrdI f).uses f.d (fun _ _ => f.imm.toNat)).exec s

/-! ## Calls (R79 to R82, R428) -/

/-- A call record (R79). -/
def CallRec.bytes (s : State) (c : CallRec) : List Byte :=
  toLE 2 c.callno ++ toLE 1 c.args.length ++ toLE 1 c.resBase ++ toLE 1 c.nres ++ toLE 1 (s.group c.gid).space ++
  toLE 1 (dieOf (coreOf c.gid)) ++ toLE 1 (coreOf c.gid % 64) ++ toLE 4 c.tag ++ toLE 2 (c.gid % 512) ++ toLE 2 0 ++ toLE 8 c.seq ++
  (upTo 5).flatMap (fun i => toLE 8 (c.args.getD i 0).toNat)
def State.setCall (s : State) (space : Nat) (c : CallRec) : State :=
  s.setPart space { s.part space with calls := (s.part space).calls.put c.tag c }
/-- The threads of a group that wait for a call. -/
def State.callWaiters (s : State) (gid : Nat) (w : Wait) : List Nat :=
  (s.live gid).filter (fun t => (s.thread t).st == .waiting w)
/-- Whether the token that a call arms is idle, as an instruction that arms it needs (R22, R428). -/
def State.tokenFree (s : State) (c : CallRec) : Bool :=
  match c.tok with | some k => ((s.group c.gid).token k).ops == 0 | none => true
/-- Writes a call record to the ring if there is room (R79, R82): without a token the threads wait for the reply; with one
they are recorded as arming it, once it is idle, and go on. A ring whose pages cannot be used kills the group that needs it (R289). -/
def State.postCall (s : State) (space tag : Nat) : State :=
  match (s.part space).calls.find tag, s.kindQueue space 2 with
  | some c, some (h, q) =>
    if c.posted || !s.tokenFree c then s
    else if !s.queueSound space q then s.doubleFault c.gid
    else match s.append space h (c.bytes s) with
      | none => s
      | some s =>
        let s := (s.setCall space { c with posted := true }).bump 6 space 0 1
        let ts := s.callWaiters c.gid (.callRing tag)
        match c.tok with
        | none => ts.foldl (fun s t => s.toWait t (.call tag)) s
        | some k =>
          let s := (ts.foldl (fun s t => s.arm t k) s).updGroup c.gid (fun g =>
            -- one operation, of every acting thread
            { g with tokens := g.tokens.upd k (fun x => { x with ops := x.ops + 1 - ts.length }) })
          ts.foldl (fun s t => s.retireAt t) s
  | _, _ => s

/-- What the release of a call's post waits for (R79, R197, R204): the group's stores that are not held, its packets that wait for room,
and its loads and atomics. -/
def State.groupUnheld (s : State) (gid : Nat) : Bool :=
  s.stores.any (fun e => gidOf e.2.tid == gid && !e.2.held) ||
  s.queues.any (fun e => e.2.waiting.any (fun w => gidOf w.1 == gid)) ||
  s.fills.any (fun e => gidOf e.2.tid == gid && (match e.2.what with | .load .. | .atom .. | .dequeue .. => true | _ => false))

/-- The next TAG of a partition that no outstanding call has: tags go on rising, so that a reply to a call that is gone finds none
(R80, R428). -/
def Part.freeTag (p : Part) : Nat :=
  (((upTo (p.calls.length + 1)).map (fun i => (p.nextTag + i) % 2 ^ 32)).find? (fun t => (p.calls.find t).isNone)).getD 0
/-- The calls that SCALL makes: one for each group with an acting lane, in ascending order of their highest lanes, with a TAG
that no call of the partition outstanding has (R428). -/
def State.makeCall (s : State) (f : IForm) (h : Nat) : State :=
  let gid := gidOf h
  let g := s.group gid
  let l := s.launch g.launch
  let p := s.part g.space
  let tag := p.freeTag
  let n := match f.a with | .g n => n.toNat | _ => 0
  let c : CallRec :=
    { tag := tag, gid := gid, tid := h, callno := scallNo f.imm, resBase := (match f.d with | .g n => n.toNat | _ => 0),
      nres := scallNres f.imm, args := (upTo (scallNarg f.imm)).map (fun i => s.getU gid (n + i)), seq := l.seq,
      tok := if f.h.arm then some f.h.atok.toNat else none }
  let s := (s.setCall g.space c).updPart g.space (fun p => { p with nextTag := (tag + 1) % 2 ^ 32 })
  if scallNo f.imm / 2 ^ 15 % 2 = 1 then s.loseReplay g.launch else s
/-- The call that a thread has just made for its group, which is not posted. -/
def State.newCall (s : State) (h : Nat) : Option CallRec :=
  ((s.part (s.spaceOf h)).calls.find? (fun e => e.2.tid == h && !e.2.posted)).map (·.2)

/-- SCALL (R428): the acting threads of a group are suspended at the SCALL until its record is written, and without a token
until the reply. -/
def execScall (f : IForm) (s : State) : Host.Outcome State Fault Refusal :=
  let op : LaneOp :=
    { uses := (Instr.scall f).uses,
      block := fun s t => if s.groupUnheld (gidOf t) then some .unheld else none,
      act := fun _ c _ => c }
  if op.clean s then
    let acting := s.cur.lanes.filter (fun t => op.lane s t == .act)
    let tops := acting.filter (op.top s)
    let s1 := tops.foldl (fun c h => c.makeCall f h) (op.begun s acting (fun c _ => c))
    let made := fun (t : Nat) => (op.mates s t).getLast?.bind s1.newCall
    let s2 := { op with block := fun o t =>
                  if acting.contains t then (made t).map (fun (c : CallRec) => Wait.callRing c.tag) else op.block o t }.run s1
    .next (tops.foldl (fun c h => match made h with
      | some r => c.postCall (c.spaceOf h) r.tag
      | none => c) s2)
  else op.exec s

/-- CALL_RECORD_POST (R82): the oldest call of a group that is not written yet and whose token is idle is written, if an entry is free. -/
def execCallRecordPost (gid : Nat) (s : State) : Host.Outcome State Fault Refusal :=
  let space := (s.group gid).space
  match (s.part space).calls.find? (fun e => e.2.gid == gid && !e.2.posted && s.tokenFree e.2) with
  | some e => .next (s.postCall space e.1)
  | none => .next s

/-- Delivers a reply to a running group (R80, R428): its results, and its token idle or its threads at the next address. -/
def State.deliverReply (s : State) (space : Nat) (c : CallRec) (res : List W64) : State :=
  let s := s.setPart space { s.part space with calls := (s.part space).calls.erase c.tag }
  let s := (upTo c.nres).foldl (fun s i => s.setU c.gid (c.resBase + i) (res.getD i 0)) s
  match c.tok with
  | some k => s.disarm c.gid (some k)
  | none => (s.callWaiters c.gid (.call c.tag)).foldl (fun s t => s.retireAt t) s
/-- A reply of a service (R80, R82): discarded and counted when its TAG matches no outstanding call; kept for a halted
group, whose threads are marked done. -/
def State.reply (s : State) (space tag : Nat) (res : List W64) : State :=
  match (s.part space).calls.find tag with
  | none => s.bump 6 space 1 1
  | some c =>
    if !c.taken || c.reply.isSome then s.bump 6 space 1 1
    else if (s.group c.gid).halted then s.setCall space { c with reply := some res }
    else s.deliverReply space c res

/-! ## Traps (R429) and the return (R287, R430) -/

/-- TRAP or BKPT: each acting lane raises its cause with the immediate. -/
def raiseOp (u : Uses) (c : Cause) (imm : W32) : LaneOp :=
  { uses := u, cause := fun _ _ => some { cause := c, i0 := imm.zeroExtend 64 }, act := fun _ c _ => c }
/-- TRAP (R429): SOFT, which resumes at the next address. -/
def execTrapI (f : IForm) (s : State) : Host.Outcome State Fault Refusal := (raiseOp (Instr.trapI f).uses .soft f.imm).exec s
/-- BKPT (R429): resumes at the BKPT itself. -/
def execBkpt (f : IForm) (s : State) : Host.Outcome State Fault Refusal := (raiseOp (Instr.bkpt f).uses .bkpt f.imm).exec s

/-- The resume address that a thread's frame holds (R285, R430). -/
def State.frameAddr' (s : State) (tid : Nat) : Addr := BitVec.ofNat 56 (leNat (s.load (s.framePa tid) 8))
/-- What RTE finds at its address (R317, R430), once its frame can be read: the line of the recorded resume address, or of its next
address, is fetched, and its target bit is not checked. -/
def State.rteFind (s : State) (tid : Nat) : Option Fetch :=
  let a := s.frameAddr' tid
  let t := s.thread tid
  if s.poisoned (s.framePa tid) 8 then none
  else if a.toNat % 64 ≥ 5 then some (.trap { cause := .badTarget, i3 := a.zeroExtend 64 })
  else if a = t.trapPc ∨ a = nextAddr t.trapPc then
    (match s.fetch (coreOf (gidOf tid)) (s.spaceOf tid) s.cur.pc.toNat a.toNat with
      | .line _ => none
      | f => some f)
  else s.enter (coreOf (gidOf tid)) (s.spaceOf tid) s.cur.pc.toNat a.toNat
/-- RTE (R287, R430): outside a handler it raises ILLEGAL_OP; reports that waited are taken first at the address resumed. -/
def execRte (f : VForm) (s : State) : Host.Outcome State Fault Refusal :=
  let op : LaneOp :=
    { uses := (Instr.rte f).uses,
      jumps := true,
      block := fun s t =>
        let va := s.framePa t - scratchBase + flatBase
        if !(s.thread t).inHandler then none
        else (s.acqWait t).or (if s.sectorPending t va then some (.sector va)
          else match s.rteFind t with
            | some .wait => some (.page (s.frameAddr' t).toNat)
            | _ => if s.poisoned (s.framePa t) 8 || decide (5 ≤ (s.frameAddr' t).toNat % 64) then none
              else s.lineWait t (s.frameAddr' t).toNat),
      cause := fun s t =>
        if !(s.thread t).inHandler then some (opTrap .illegalOp s.cur.raw)
        else match s.rteFind t with | some (.trap x) => some x | _ => none,
      act := fun o c t =>
        if o.poisoned (o.framePa t) 8 then c.consumeAt t
        else match o.rteFind t with
          | some .bad => c.consumeAt t
          | _ => c.leaveHandler t (o.frameAddr' t) }
  let s' := op.run s
  .next ((s.cur.lanes.foldl (fun c t =>
    if op.lane s t == .act && (c.thread t).retired == (s.thread t).retired + 1 then c.deliver t false else c) s').faultPages 8 s.cur.lanes)

/-! ## Reports (R69 to R71, R431) -/

/-- A list cut or zero-filled to `n` bytes. -/
def fit (n : Nat) (l : List Byte) : List Byte := (l ++ List.replicate n 0).take n
/-- The attestation report on a subject for a nonce (R70); each takes the next sequence number. -/
def State.attest (s : State) (subject : Nat) (nonce : List Byte) : List Byte × State :=
  let p := s.part subject
  let dev := subject == 0xFF
  let seq := s.pkg.reportSeq + 1
  let boots := s.pkg.boots
  let body :=
    toLE 4 0x5441584B ++ toLE 2 1 ++ toLE 1 s.pkg.stage ++ toLE 1 subject ++ toLE 8 Config.serial ++ toLE 8 seq ++
    toLE 2 (if dev then 0 else p.epoch.toNat) ++ toLE 1 (if dev then 0 else p.migpol) ++ toLE 1 0 ++ toLE 4 boots ++ fit 64 nonce ++
    (upTo 4).flatMap (fun i => fit 64 (Config.firmware i)) ++ fit 56 (Config.x448Key boots) ++ fit 57 (Config.ed448Key boots) ++
    toLE 7 0
  (body ++ fit 114 (Config.ed448 boots (Config.shake256 body 64)) ++ toLE 6 0, { s with pkg.reportSeq := seq })

/-- SIGRD (R431): both places are checked, the nonce is read, and the thread is suspended until its report is written. -/
def execSigrd (f : VForm) (s : State) : Host.Outcome State Fault Refusal :=
  let buf := fun (s : State) (t : Nat) => (s.src64 t f.a).toNat % vaMod
  let non := fun (s : State) (t : Nat) => (s.src64 t f.b).toNat % vaMod
  let wr := fun (x : TrapInfo) => { x with i2 := 2 }
  let op : LaneOp :=
    { uses := (Instr.sigrd f).uses,
      block := fun s t => (s.acqWait t).or (s.ldWait t [non s t, non s t + 32] 32 true),
      cause := fun s t =>
        firstTrap
          [(trapOf (s.scratchAt t (buf s t) 64 true)).map wr, (trapOf (s.scratchAt t ((buf s t + 576) % vaMod) 64 true)).map wr,
           trapOf (s.scratchAt t (non s t) 64 false)],
      act := fun _ c _ => c }
  if op.clean s then
    let acting := s.cur.lanes.filter (fun t => op.lane s t == .act)
    let s1 := op.begun s acting (fun c t =>
      match s.scratchAt t (buf s t) 64 true, s.scratchAt t (non s t) 64 false with
      | .ok b, .ok n =>
        if s.poisoned n 64 then c.consumeAt t
        else { c with sigrds := c.sigrds.put t { buf := b, nonce := s.load n 64, subject := if f.sel = 0 then s.spaceOf t else 0xFF } }
      | _, _ => c.consumeAt t)
    LaneOp.exec { op with block := fun o t => if acting.contains t then some .report else op.block o t } s1
  else op.exec s

end Sys2Proof.Machine
end

