-- ==== Sys2Proof/Machine/Frames.lean ====
section
/-! DEFINITION. Frames: DRAM frames of a space with the clock hand and eviction (R76, R77, R89, R92, R93), scratchpad frames
of a slice and allocations in them (R173 to R177), the resolution of a page (R95, R96), and copy-aside (R185). -/
namespace Sys2Proof.Machine

/-! ## DRAM frames -/

/-- Whether a load or an atomic has translated into a frame and is not performed (R91). Stoker elements and transfers of ports and seals
land in the act in which they translate (log 3), so none of them keeps a frame busy. -/
def State.busy (s : State) (f : Nat) : Bool :=
  s.fills.any (fun e => e.2.sectors.any (fun k => k * 32 / frameBytes == f))

/-- The clock hand (R92) of a request of `q`: the frame that it takes, and the marks and the place of the hand, or none once it has
passed frame 0 for the third time. `run` when the request needs a run of frames, for which a free frame alone is nothing; with `q` at
BURST no free frame is taken either. `n` bounds the steps. -/
def State.hand : Nat → State → Nat → Nat → Bool → Option Nat × State
  | 0, s, _, _, _ => (none, s)
  | n + 1, s, q, sweeps, run =>
    let f := s.clock
    let s := { s with clock := (s.clock + 1) % dramFrames }
    let sweeps := if f = 0 then sweeps + 1 else sweeps
    let e := s.frame f
    let full := s.frameCap q ≤ s.resident q
    if sweeps = 3 then (none, s)
    else if e.owner = 127 then (if full || run || !s.frameThere f then State.hand n s q sweeps run else (some f, s))
    else if 63 < e.owner || e.fix || s.busy f then State.hand n s q sweeps run
    else if full && e.owner != q then State.hand n s q sweeps run
    else if !full && s.resident e.owner ≤ (s.part e.owner).guar then State.hand n s q sweeps run
    else if e.ref then State.hand n (s.setFrame f { e with ref := false }) q sweeps run
    else (some f, s)

/-- The page of a space whose leaf covers a DRAM frame. -/
def State.pageOfFrame (s : State) (f : Nat) : List (Nat × Nat) :=
  s.pages.filterMap (fun e =>
    let n := sizePages e.2.size
    if e.2.valid && e.2.kind == 0 && e.2.addr / frameBytes ≤ f && f < e.2.addr / frameBytes + n then
      some (e.1 / 2 ^ 40, e.1 % 2 ^ 40 + (f - e.2.addr / frameBytes))
    else none)
/-- EVICTION of a frame (R93): its leaf is split, every page on it goes to STATE 2 with its content in the lower tier, where a frame that
is not DIRTY has it already, and the frame is free. An aside copy in it goes to the lower tier as the generation's copy (R185). -/
def State.evict (s : State) (f : Nat) : State :=
  let o := s.frame f
  let r := match s.sealOf f with | some slot => (slot, s) | none => s.newSlot (s.imageOf (frameAddr f))
  let slot := r.1
  let s := r.2
  let s := (s.pageOfFrame f).foldl (fun s x =>
    let s := s.splitLeaf x.1 x.2
    match s.walk x.1 x.2 with
    | some (b, e) => s.setPage x.1 b { e with valid := false, state := 2, fix := false, addr := slot }
    | none => s) s
  let s := s.updPart o.owner (fun p => { p with gens := Tab.mapVals p.gens (fun g =>
    { g with asides := g.asides.filter (fun e => e.2 != f), held := g.held.filter (fun e => e.2 != f),
             drained := ((g.asides ++ g.held).filter (fun e => e.2 == f)).foldl (fun t e => t.put e.1 slot) g.drained }) })
  s.giveFrame f
/-- VICTIM_EVICT (R92, R93): while a frame request of `q` waits and no frame that it may take is free, the hand chooses a victim that
nothing in flight has translated into (R91), and it is evicted, to the lower tier where that has no copy of it. -/
def execVictimEvict (q : Nat) (s : State) : Host.Outcome State Fault Refusal :=
  match (s.part q).frameWait with
  | none => .next s
  | some (n, align) =>
    if (s.freeRun n align).isSome ∧ s.mayTake q n false then .next s
    else match State.hand (3 * dramFrames + 1) s q 0 (n != 1) with
      | (none, s') => .next s'
      | (some f, s') =>
        if (s'.frame f).owner = 127 then .next s'
        else if (s'.sealOf f).isNone && !s'.tierServed then .next s
        else .next (s'.evict f)

/-- EPOCH_SCRUB (R57): a stale frame is rewritten. -/
def execEpochScrub (frame : Nat) (s : State) : Host.Outcome State Fault Refusal :=
  .next (if s.stale frame then s.zeroFrame frame else s)
/-- SECTOR_SCRUB (R296): a scrub pass meets an uncorrectable error in a sector, which is poisoned, and counts it in the Soot
record, by stack or, from 32 on, by SRAM die. -/
def execSectorScrub (sector : Nat) (s : State) : Host.Outcome State Fault Refusal :=
  let pa := sector * 32
  let index := if pa < scratchBase then pa / 0x3000000000 * 8 else 32 + (pa - scratchBase) / 2 ^ 29
  .next ({ s with poison := insertAsc sector s.poison }.sootAdd 1 index 1 1 (2 ^ 64 - 1))

/-! ## Pages -/

/-- What a page's attributes become when it resolves MAPPED (R87): a 64 KiB leaf with FIX 0. -/
def PageEnt.leafAt (e : PageEnt) (f : Nat) : PageEnt :=
  { e with valid := true, size := 0, state := 0, fix := false, addr := frameAddr f }
/-- A page that is not resident resolves without content, at a state of R87: what a generation still needs of it stays with the
generation (R190). -/
def State.closePage (s : State) (space page state : Nat) : State :=
  match s.walk space page with
  | none => s
  | some (b, e) => (((s.holdForGens space page).setPage space b { e with valid := false, state := state }).updPart space (fun p =>
      { p with pulls := p.pulls.erase page })).endPageWait space page
/-- A pull of a page fails its digest (R56, R96): it is tried again, and a third failure resolves the page LOST. -/
def State.pullFails (s : State) (space page : Nat) : State :=
  let n := (s.part space).pulls.getD page 0 + 1
  if n < 3 then s.updPart space (fun p => { p with pulls := p.pulls.put page n }) else s.closePage space page 4
/-- PAGE_RESOLVE (R96): MAPPED zero-fills a STATE-1 page or brings the lower-tier copy of a STATE-2 page into a frame of the
space, for which it waits when none is to be had (R92); a STATE-3 page is pulled by POST_COPY_PULL; REFUSED sets STATE 0 and LOST
STATE 4, and what a generation still needs of the page stays with it (R190). -/
def execPageResolve (space page : Nat) (r : Resolution) (s : State) : Host.Outcome State Fault Refusal :=
  match s.walk space page with
  | none => .next (s.endPageWait space page)
  | some (b, e) =>
    if e.valid || e.state = 0 || e.state = 4 then .next (s.endPageWait space page)
    else match r with
      | .refused => .next (s.closePage space page 0)
      | .lost => .next (s.closePage space page 4)
      | .mapped =>
        if e.state = 3 ∨ (e.state = 2 ∧ !s.tierServed) then .next s
        else match (if s.mayTake space 1 false then s.freeRun 1 0 else none) with
          | none => .next (s.wantFrames space 1 0)
          | some f =>
            let s1 := (s.takeFrame space f false).gotFrames space
            let s2 := if e.state = 2 then s1.putImage (frameAddr f) (s1.slots.getD e.addr Image.blank) else s1
            let s2 := s2.setFrame f { s2.frame f with maps := 1 }
            let s3 := if e.state = 2 then s2.sealed f e.addr else s2
            .next (((s3.setPage space b (e.leafAt f)).updPart space (fun p => { p with pulls := p.pulls.erase page })).endPageWait space page)

/-! ## Copy-aside (R185) -/

/-- COPY_ASIDE (R185): the granule under a page is copied into a frame of the space, for which it waits when none is to be had, and the
copy serves every generation that shares the content; the write that waited may then take effect. -/
def execCopyAside (space page : Nat) (s : State) : Host.Outcome State Fault Refusal :=
  match s.pageFrame space page with
  | none => .next s
  | some f =>
    if !s.frameShared space f then .next s
    else match s.copyAside space f with
      | some s' => .next (s'.gotFrames space)
      | none => .next (s.wantFrames space 1 0)

/-! ## Scratchpad frames (R173 to R177) -/

/-- First and last frame numbers of a core's slice. -/
def sliceFrame (core : Nat) : Nat := dramFrames + core * 128
def scrCap (s : State) (p : Nat) : Nat := (s.part p).scrcap
/-- Ranges of a slice, by physical address, that nothing new may use: allocations, grants, bound queues and other spaces' frames; with
`strict` also free frames. -/
def State.scrTaken (s : State) (core p : Nat) (strict : Bool) : List (Nat × Nat) :=
  let frames := (upTo 128).map (fun i => sliceFrame core + i)
  let bad := frames.filter (fun f =>
    let o := (s.frame f).owner
    (o != p && o != 127) || (strict && o == 127) || (s.grants.find f).isSome)
  bad.map (fun f => (frameAddr f, frameAddr f + frameBytes)) ++
  (s.groups.filter (fun e => coreOf e.1 == core && !s.scrSpilt e.1)).map (fun e => s.allocRange e.1) ++
  s.queues.flatMap (fun e => (e.2.spans.filter (fun r => isFlat r.1)).map (fun r => (flatPa r.1, flatPa r.1 + r.2)))
/-- The first place of `n` bytes at a granularity of 256 in a slice: first in frames of the space, then with free frames
(R176). -/
def State.scrPlace (s : State) (core p n : Nat) : Option Nat :=
  let lo := frameAddr (sliceFrame core)
  let try' := fun (strict : Bool) =>
    let taken := s.scrTaken core p strict
    let starts := (lo :: taken.map (fun r => roundUp r.2 256))
    let fits := starts.filter (fun a => lo ≤ a && a + n ≤ lo + 2 ^ 23 && taken.all (fun r => r.2 ≤ a || a + n ≤ r.1))
    let new := fun (a : Nat) =>
      ((upTo 128).filter (fun i => let f := sliceFrame core + i
        (s.frame f).owner == 127 && a < frameAddr f + frameBytes && frameAddr f < a + n)).length
    (fits.filter (fun a => s.scrHeld p + new a ≤ scrCap s p || new a == 0)).foldl
      (fun (m : Option Nat) a => match m with | some b => some (min a b) | none => some a) none
  (try' true).or (try' false)
/-- The leaf of a scratchpad frame (R173). -/
def scrLeaf (p f : Nat) : PageEnt :=
  { valid := true, size := 0, fix := true, reach := 1, owner := p, addr := frameAddr f, kind := 1, xe := false, w := true, rd := true }
/-- A free scratchpad frame becomes a space's, zero-filled and mapped (R173, R175). -/
def State.takeScr (s : State) (p f : Nat) : State :=
  if (s.frame f).owner = 127 then
    let s := s.takeFrame p f true
    let s := s.setFrame f { s.frame f with maps := 1 }
    s.setPage p ((flatBase + (frameAddr f - scratchBase)) / frameBytes) (scrLeaf p f)
  else s
/-- The frames of a slice under a range that are free. -/
def State.scrNew (s : State) (core lo n : Nat) : List Nat :=
  ((upTo 128).map (sliceFrame core + ·)).filter (fun f =>
    (s.frame f).owner == 127 && decide (lo < frameAddr f + frameBytes) && decide (frameAddr f < lo + n))
/-- Takes the frames under a range of a slice. -/
def State.takeScrRange (s : State) (core p lo n : Nat) : State :=
  (upTo 128).foldl (fun s i =>
    let f := sliceFrame core + i
    if lo < frameAddr f + frameBytes ∧ frameAddr f < lo + n then s.takeScr p f else s) s

end Sys2Proof.Machine
end

