-- ==== Sys2Proof/Machine/Pairs.lean ====
section
/-! DEFINITION. Pairs of slots (R27, R321 to R323), and what the front end reads of the slot at a code address: the wait mask and the
pipes it needs (R137, R141, R323). -/
namespace Sys2Proof.Machine

/-- First slots of the pairs of a template; bit 3 changes timing only (R321). -/
def pairsOf (tmpl : Nat) : List Nat :=
  match tmpl % 8 with
  | 1 => [0] | 2 => [1] | 3 => [2] | 4 => [3] | 5 => [0, 2] | 6 => [0, 3] | 7 => [1, 3] | _ => []
/-- What may not be the first of a pair (R27). -/
def Instr.neverFirst : Instr → Bool
  | .nop _ | .bra _ | .brx _ | .call _ | .ret _ | .exitT _ | .haltW _ | .rte _ | .trapI _ | .scall _ => true
  | _ => false
/-- A word with an operand field that names nothing replaced by P0. -/
def fixField (w p : Nat) : Nat := if (decOperand (fld w p 10)).isSome then w else w - fld w p 10 * 2 ^ p + 512 * 2 ^ p
/-- The instruction that a word's opcode and operand fields name, whatever the checks of its fields say (log 8); INVALID has no payload
(R338, R340). -/
def looseInstr (w : Nat) : Option Instr :=
  match opRow (w % 1024) with
  | none => if w % 1024 = 0 then some (.invalid default) else none
  | some r =>
    let w := w - fld w 30 2 * 2 ^ 30
    let w := match r.fmt with
      | .v => [32, 42, 52, 62].foldl fixField (w % 2 ^ 88)
      | .i => [32, 42].foldl fixField w
      | .m => [32, 42, 52].foldl fixField w
      | .b => [32].foldl fixField (w % 2 ^ 83)
      | .a => [32, 42, 52, 62].foldl fixField w
    (decPayload r.fmt w).bind (mkInstr (w % 1024))
/-- Whether two slots meet R27, whether or not each decodes (R322, log 8). -/
def pairOk (w1 w2 : Nat) (tgt2 : Bool) : Bool :=
  match looseInstr w1, looseInstr w2 with
  | some i, some j =>
    pipeOf w1 != pipeOf w2 && !tgt2 && w2 % 1024 != 1 && !Instr.neverFirst i &&
    (i.uses.writes 0).all (fun r => !(j.uses.reads 0).contains r && !(j.uses.writes 0).contains r) &&
    !(i.uses.h.arm && j.uses.h.wait.getLsbD i.uses.h.atok.toNat)
  | _, _ => false
/-- Whether a slot of a line is the first of a pair of its template that meets R27. -/
def pairAt (b : List Byte) (slot : Nat) : Bool :=
  (pairsOf (lineWord b / 2 ^ 10 % 16)).contains slot && pairOk (slotWord b slot) (slotWord b (slot + 1)) (tgtBit b (slot + 1))
/-- The tokens that a slot waits for; both masks of a pair together (R323). -/
def maskOfSlot (b : List Byte) (slot : Nat) : BitVec 8 :=
  BitVec.ofNat 8 (slotWord b slot / 2 ^ 15 ||| (if pairAt b slot then slotWord b (slot + 1) / 2 ^ 15 else 0))
/-- The wait mask at a code address. -/
def State.waitMask (s : State) (core space : Nat) (addr : Addr) : BitVec 8 :=
  match s.fetch core space addr.toNat addr.toNat with
  | .line b => maskOfSlot b (slotOf addr)
  | _ => 0
/-- The pipes that the slot or pair at a code address needs (R141). -/
def State.pipesAt (s : State) (core space : Nat) (addr : Addr) : List Pipe :=
  match s.fetch core space addr.toNat addr.toNat with
  | .line b =>
    let slot := slotOf addr
    pipeOf (slotWord b slot) :: (if pairAt b slot then [pipeOf (slotWord b (slot + 1))] else [])
  | _ => []

end Sys2Proof.Machine
end

