-- ==== Sys2Proof/Machine/Save.lean ====
section
/-! DEFINITION. Save areas (R168 to R170), claims of units and their return (R147 to R149), halting (R146, R150), stops and the
dump (R308, R309), HALT (R360), and the debugger's register commands (R167). -/
namespace Sys2Proof.Machine

/-! ## Waits (R137) -/

/-- Whether a group stands converged at a collective, with every register it waits for full (R143, R164). -/
def State.converged (s : State) (gid : Nat) (pc : Addr) : Bool :=
  (s.live gid).all (fun t => s.stands pc t && (match (s.thread t).st with
    | .waiting (.converge rs) => rs.all (fun r => !s.isEmpty r)
    | _ => false))
/-- The instruction at a code address, if its line can be read. -/
def State.instrAt (s : State) (core space : Nat) (pc : Addr) : Option Instr :=
  match s.fetch core space pc.toNat pc.toNat with
  | .line b => match decode (slotWord b (slotOf pc)) with | .ok i => some i | .error _ => none
  | _ => none
/-- Whether what a thread waits for has come about; waits that an event ends answer no. -/
def State.waitOver (s : State) (tid : Nat) (w : Wait) : Bool :=
  let gid := gidOf tid
  let core := coreOf gid
  let space := s.spaceOf tid
  match w with
  | .tokens m => !(s.group gid).pending m
  | .regs rs => rs.all (fun r => !s.isEmpty r)
  | .converge _ => s.converged gid (s.thread tid).pc
  | .bar k => (s.thread tid).arrivals.getD k 0 ≤ s.bars.getD (s.barKey gid k) 0
  | .unheld => !s.groupUnheld gid
  | .page va => !s.pagePending space (va / frameBytes) &&
      (match s.xlate space (some core) va with | .leaf pa _ => !s.needsAside space pa | _ => true)
  | .phase pa k => s.poisoned pa 16 || (s.barrierAt pa).phase != k
  | .reclaim => 0 < s.freeRecords space
  | .sector va => !s.sectorPending tid va
  | .stores => !s.storesPending tid
  | .drain none => !s.storesPending tid
  | .snap ts => ts.all (fun t => (s.thread t).st != .waiting (.snap ts) || (!s.storesPending t && !s.fillsPending t))
  | .drain (some n) => !s.drainPending gid n
  | .skid => !s.skidPending tid
  | .accesses => !s.fillsPending tid
  | .released ts => ts.all (fun t => !s.storesPending t && !s.fillsPending t)
  | .tile u full => s.fullUnits.contains u == full
  | .room cw room =>
    match s.cwQueue space cw with
    | some (h, _) => match s.freshQueue space h with
      | some q => if room then !q.full else q.count != 0
      | none => true
    | none => true
  | .tileReg n => !s.tileQueued gid n
  | .pipe 0 => s.recordsHeld core + s.recordsDue core < 32
  | .pipe 1 => s.windowFlits core < 256
  | .pipe 2 => match s.kindQueue space 3 with | some (_, q) => !q.full | none => false
  | .pipe 3 => (s.slotsHeld core).length < 128 ||
      (match s.instrAt core space (s.thread tid).pc with
        | some (.copy f) | some (.gcopy f) => (s.openColl gid (s.flatOf tid (s.vaOf tid f.a))).isSome
        | _ => false)
  | .pipe 4 => !s.matFull core
  | .pipe 5 => s.coreSearches core < 64 ||
      (match s.instrAt core space (s.thread tid).pc with
        | some (.reclaim f) => !s.newName space (s.nameOf f tid)
        | _ => false)
  | .pipe _ => (s.live gid).all (fun t => (s.thread t).st != .waiting (.pipe 5))
  | .callRing _ | .call _ | .report | .tload | .sleep _ | .yield _ | .acqr | .fetch _ => false

/-! ## The layout of a save area (R168, R169) -/

/-- Sizes of the eight sections of a group in bytes, in SPILT bit order, before rounding; `first` for group 0 of a workgroup. -/
def LRec.sections (r : LRec) (width : Nat) (first : Bool) : List Nat :=
  [4 * width * r.nv, 32 * width, 8 * r.ng, 32 * r.tregs, if r.pinclass then 64 else 0, 395008 * r.accs, 1024 * r.opbuf,
   if first then r.allocBytes else 0]
def State.sections (s : State) (gid : Nat) : List Nat :=
  let g := s.group gid
  (s.launch g.launch).record.sections g.width (g.gidx == 0)
/-- Offset of section `c`; 0 when the class holds nothing. -/
def State.secOffset (s : State) (gid c : Nat) : Nat :=
  let z := s.sections gid
  if z.getD c 0 = 0 then 0 else 256 + ((z.take c).map (fun x => roundUp x 256)).sum
def saveBytes (z : List Nat) : Nat := 256 + (z.map (fun x => roundUp x 256)).sum
/-- Frames of a save area. -/
def saveFramesOf (z : List Nat) : Nat := roundUp (saveBytes z) frameBytes / frameBytes
def State.saveFrames (s : State) (gid : Nat) : Nat := saveFramesOf (s.sections gid)

/-- The units of a group (R147): its classes by SPILT bit, and each accumulator by 8 and its number, where it holds any of them. -/
def State.units (s : State) (gid : Nat) : List Nat :=
  (upTo 8).flatMap (fun c =>
    if (s.sections gid).getD c 0 = 0 then []
    else if c = 5 then (upTo (s.launch (s.group gid).launch).record.accs).map (8 + ·) else [c])
/-- The SPILT bit of a unit, and whether a unit is spilt. -/
def unitBit (u : Nat) : Nat := if u < 8 then u else 5
def Group.isSpilt (g : Group) (u : Nat) : Bool := if u < 8 then g.spilt.getLsbD u else g.accSpilt.getLsbD (u - 8)
/-- A group with a unit marked spilt. -/
def Group.spill (g : Group) (u : Nat) : Group :=
  { g with spilt := g.spilt ||| (1 <<< unitBit u), accSpilt := if u < 8 then g.accSpilt else g.accSpilt ||| (1 <<< (u - 8)) }
/-- Where a unit lies in its save area, and its size. -/
def State.unitSpan (s : State) (gid u : Nat) : Nat × Nat :=
  if u < 8 then (s.secOffset gid u, (s.sections gid).getD u 0) else (s.secOffset gid 5 + 395008 * (u - 8), 395008)

/-- The state code of a thread (R137, R169): one whose wait is over is ready or waits for a token, and so does one that stands at an
instruction which its pipe or an order of its accesses keeps from issuing (log 66). -/
def State.stateCode (s : State) (tid : Nat) : Nat :=
  let idle := bit ((s.group (gidOf tid)).pending (s.waitMask (coreOf (gidOf tid)) (s.spaceOf tid) (s.thread tid).pc))
  match (s.thread tid).st with
  | .exited => 0
  | .ready => idle
  | .replied => 5
  | .waiting w =>
    if s.waitOver tid w then idle
    else match w with
    | .tokens _ => 1
    | .regs _ => 2
    | .converge _ => 3
    | .unheld | .sector _ | .stores | .accesses | .released _ | .tileReg _ | .pipe _ | .skid | .fetch _ => idle
    | .call tag => match (s.part (s.spaceOf tid)).calls.find tag with | some c => if c.reply.isSome then 5 else 4 | none => 4
    | _ => 4
/-- The image of an accumulator (R169, R254). -/
def Acc.image (a : Acc) : List Byte :=
  (upTo 32768).flatMap (fun k => toLE 12 (a.entries.getD k 0).toNat) ++
  (upTo 128).flatMap (fun r => toLE 12 (a.sums.getD r 0).toNat) ++ toLE 16 a.word ++ List.replicate 240 0
/-- An accumulator from its image: the table entries that are not zero. -/
def accOf (b : List Byte) : Acc :=
  let tab := fun (base n : Nat) => (upTo n).filterMap (fun k =>
    let x := BitVec.ofNat 96 (fieldLE b (base + 12 * k) 12)
    if x = 0 then none else some (k, x))
  let w := fieldLE b 394752 4
  { entries := tab 0 32768, sums := tab 393216 128, blank := w / 2 ^ 31 % 2 == 1, gerr := w / 2 ^ 27 % 2 == 1,
    inexact := w / 2 ^ 26 % 2 == 1, nan := w / 2 ^ 25 % 2 == 1, ovf := w / 2 ^ 24 % 2 == 1, h := BitVec.ofNat 8 (w / 65536),
    anchor := BitVec.ofNat 16 w }
/-- The bytes of a thread in section 1. -/
def State.threadImage (s : State) (gid i : Nat) : List Byte :=
  let t := gid * 64 + i
  let h := s.thread t
  let r := (s.launch (s.group gid).launch).record
  (upTo 16).map (fun n => if r.pclass then s.getP t n else 0) ++ toLE 7 h.pc.toNat ++
  toLE 1 (s.stateCode t + 128 * bit (h.st == .exited)) ++ toLE 8 0

/-- The content of section or unit `c` of a group, from the core's state. -/
def State.secImage (s : State) (gid c : Nat) : List Byte :=
  let g := s.group gid
  let r := (s.launch g.launch).record
  match c with
  | 0 => (upTo g.width).flatMap (fun i => (upTo r.nv).flatMap (fun n => toLE 4 (s.getV (gid * 64 + i) n).toNat))
  | 1 => (upTo g.width).flatMap (fun i => s.threadImage gid i)
  | 2 => (upTo r.ng).flatMap (fun n => toLE 8 (s.getU gid n).toNat)
  | 3 => (upTo r.tregs).flatMap (fun n => toLE 32 (s.getT gid n).toNat)
  | 4 => (upTo 8).flatMap (fun n => toLE 8 (s.getPin gid n).toNat)
  | 5 => (upTo r.accs).flatMap (fun k => (s.getAcc gid k).image)
  | 6 => (upTo (1024 * r.opbuf)).map (fun i => BitVec.ofNat 8 (s.opByte gid i))
  | k + 8 => (s.getAcc gid k).image
  | _ => s.load (s.allocRange gid).1 r.allocBytes
/-- The parts of a unit that are written, with their sizes: the spans of exited threads are left out (R169). -/
def State.secPlaces (s : State) (gid c : Nat) : List (Nat × Nat) :=
  let n := match c with | 0 => 4 * (s.launch (s.group gid).launch).record.nv | _ => 32
  if c ≤ 1 then (s.live gid).map (fun t => (n * level0 t, n)) else [(0, (s.secImage gid c).length)]
/-- What a seal writes of a unit. -/
def State.secSpans (s : State) (gid c : Nat) : List (Nat × List Byte) :=
  (s.secPlaces gid c).map (fun x => (x.1, ((s.secImage gid c).drop x.1).take x.2))

/-- The header of a save area (R168). -/
def State.saveHeader (s : State) (gid mask : Nat) : List Byte :=
  let g := s.group gid
  let core := coreOf gid
  let exited := maskOf ((upTo g.width).filterMap (fun i => if (s.thread (gid * 64 + i)).st = .exited then some (gid * 64 + i) else none))
  toLE 4 0x5653584B ++ toLE 2 1 ++ toLE 1 (Nat.log2 (g.width / 8)) ++ toLE 1 g.laneBase ++ toLE 2 (gid % 512) ++ toLE 1 g.space ++
  toLE 1 (dieOf core) ++ toLE 1 (core % 64) ++ toLE 1 mask ++ toLE 2 0 ++ toLE 8 exited ++ toLE 8 (s.launch g.launch).seq ++
  (upTo 8).flatMap (fun c => toLE 8 (s.secOffset gid c)) ++
  toLE 1 (((upTo 8).filter (fun k => (g.token k).ops != 0)).foldl (fun (a : Nat) k => a + 2 ^ k) 0) ++ toLE 7 0 ++
  (upTo 8).flatMap (fun k => toLE 8 (g.token k).armers.toNat) ++ toLE 88 0

/-- Physical address of a group's save area. -/
def State.saveBase (s : State) (gid : Nat) : Nat := frameAddr (s.group gid).saveFrame
/-- The digest that the device keeps of a sealed unit (R170). -/
def State.sealDigest (s : State) (gid c : Nat) : List Byte :=
  let p := s.part (s.group gid).space
  let at' := s.unitSpan gid c
  Config.shake256 (Config.cipher p.key (s.rdBytes (s.saveBase gid + at'.1) (roundUp at'.2 256))) 32

/-! ## Claiming a unit (R147, R148) and its return (R149) -/

/-- Collectives with elements that have not landed and are not parked, or that are about to start (R147). -/
def State.landing (s : State) (f : Coll → Bool) : Bool :=
  s.colls.any (fun e => e.2.slices.any (fun x => x.left != []) && (e.2.started || s.allSupplied e.2) && f e.2)
/-- The group whose tile a collective fills. -/
def State.tileGroup (s : State) (c : Coll) : Option Nat :=
  let y := layoutOf c.record
  if !y.toTile then none
  else if c.started then c.tile.map (·.1) else s.wgGroup c.launch c.wg (y.dst / 256 % 512)
/-- The physical range that a collective writes in scratchpad. -/
def Coll.dstRange (c : Coll) : Nat × Nat :=
  let y := layoutOf c.record
  let lo := flatPa (unalias (some c.core) y.dst)
  if y.toTile then (0, 0) else (lo, lo + prod (y.ext.take y.ndim) / y.unit * y.unitBytes)
/-- Whether something in flight can still write a unit or needs it (R147, R165, R227). -/
def State.unitBusy (s : State) (gid c : Nat) : Bool :=
  let mine := fun (r : RegName) =>
    match r with
    | .v t _ => c == 0 && gidOf t == gid
    | .p t _ => c == 1 && gidOf t == gid
    | .u g _ => c == 2 && g == gid
  let range := s.allocRange gid
  let meets := fun (a b : Nat) => a < range.2 && range.1 < b
  let onBar := fun (b : Option Nat) => match b with | some a => meets (flatPa a) (flatPa a + 16) | none => false
  let queued := fun (f : MatEnt → Bool) => s.matq.any (fun q => q.2.any f)
  let ofGroup := fun (e : MatEnt) => gidOf e.tid == gid || (match e.op with | .mma _ _ g a .. => g == gid || a == gid | _ => false)
  s.fills.any (fun e => (if e.2.acqr then e.2.targets else e.2.empties).any mine) ||
  (c == 3 && s.landing (fun y => s.tileGroup y == some gid)) ||
  (c == 4 && (s.searches.any (fun e => e.2.first && e.2.fills.any (fun i => match s.fills.find i with
      | some f => gidOf f.tid == gid
      | none => false)) ||
    decide (2 ^ 20 < s.pinDir.length + ((upTo 8).filter (fun n => pinV (s.getPin gid n))).length))) ||
  (c == 6 && (queued ofGroup || s.tloads.any (fun e => gidOf e.2.tid == gid) || s.landing (fun y => s.tileGroup y == some gid))) ||
  (c == 7 && (s.landing (fun y => meets y.dstRange.1 y.dstRange.2 || y.slices.any (fun x => x.left != [] && onBar x.barrier)) ||
    s.sigrds.any (fun e => meets e.2.buf (e.2.buf + 640)) || s.tloads.any (fun e => onBar e.2.barrier) ||
    s.stores.any (fun e => let k := s.sectorOf e.2.space e.2.va; meets (32 * k) (32 * k + 32)) ||
    s.fills.any (fun e => match e.2.what with | .atom pa .. => meets pa (pa + 32) | _ => false) ||
    s.tloads.any (fun e => e.2.left.any (fun r => meets (e.2.src + 32 * r.1) (e.2.src + 32 * r.2))) ||
    queued (fun e => match e.op with
      | .mdrain _ d _ n fmt _ => meets (flatPa d) (flatPa d + 256 * drainBytes fmt * n)
      | _ => false))) ||
  (8 ≤ c && queued ofGroup)

/-- A unit's content on the core becomes zero (R58); a claim of an accumulator unit also ends the use of the planes until they
are reloaded (R253). -/
def State.zeroUnit (s : State) (gid c : Nat) : State :=
  match c with
  | 0 => { s with vreg := Tab.keep s.vreg (fun k _ => k / 16384 != gid) }
  | 1 => { s with preg := Tab.keep s.preg (fun k _ => k / 1024 != gid) }
  | 2 => { s with ureg := Tab.keep s.ureg (fun k _ => k / 64 != gid) }
  | 3 => { s with treg := Tab.keep s.treg (fun k _ => k / 16 != gid) }
  | 4 => { s with pinreg := Tab.keep s.pinreg (fun k _ => k / 8 != gid) }
  | 6 =>
    let lo := coreOf gid * 2 ^ 21 + (s.group gid).opBase
    let n := (s.launch (s.group gid).launch).record.opbuf * 1024
    { s with opbuf := Tab.keep s.opbuf (fun k _ => k < lo || lo + n ≤ k) }
  | 7 =>
    let r := s.allocRange gid
    (s.wipe r.1 r.2).freeScratch (s.group gid).space
  | k => { s with accs := s.accs.erase (gid * 8 + (k - 8)) }

/-- CLAIMS a unit of a halted group (R147): its pins pass to the directory, it is sealed into the save area, and zeroed. The header is
written whole at the first spill after each return, and its SPILT mask with every later spill: both are the model's choice (R168, log 84). -/
def State.claimUnit (s : State) (gid c : Nat) : State :=
  let g := s.group gid
  let base := s.saveBase gid
  let off := (s.unitSpan gid c).1
  let mask := (g.spill c).spilt.toNat
  let s := if c = 4 then
      (s.pinreg.filter (fun e => e.1 / 8 == gid && pinV e.2)).foldl (fun s e => { s with pinDir := s.pinDir.put e.1 e.2 }) s
    else s
  let s := (s.secSpans gid c).foldl (fun s x => s.wrBytes (base + off + x.1) x.2) s
  let s := s.wrBytes base (if g.spilt = 0 then s.saveHeader gid mask
    else (s.rdBytes base 13) ++ toLE 1 mask ++ (s.rdBytes (base + 14) 82) ++ ((s.saveHeader gid mask).drop 96))
  let d := s.sealDigest gid c
  let s := s.updGroup gid (fun g => { g.spill c with digests := g.digests.put c d })
  s.zeroUnit gid c

/-- Whether the seal of a unit agrees (R149, R170): the digest and the memory's own check. -/
def State.sealOk (s : State) (gid c : Nat) : Bool :=
  (s.group gid).digests.find c == some (s.sealDigest gid c) &&
  (let at' := s.unitSpan gid c; !s.poisoned (s.saveBase gid + at'.1) (max 1 (roundUp at'.2 256)))

/-- Reads a unit back (R149). -/
def State.loadUnit (s : State) (gid c : Nat) : State :=
  let g := s.group gid
  let r := (s.launch g.launch).record
  let b := s.rdBytes (s.saveBase gid + (s.unitSpan gid c).1) (s.unitSpan gid c).2
  match c with
  | 0 => (s.live gid).foldl (fun s t => (upTo r.nv).foldl (fun s n =>
      s.setV t n (BitVec.ofNat 32 (fieldLE b (4 * (level0 t * r.nv + n)) 4))) s) s
  | 1 => (s.live gid).foldl (fun s t =>
      let o := 32 * level0 t
      let s := s.updThread t (fun h => { h with pc := BitVec.ofNat 56 (fieldLE b (o + 16) 7) })
      if r.pclass then (upTo 16).foldl (fun s n => s.setP t n (BitVec.ofNat 8 (fieldLE b (o + n) 1))) s else s) s
  | 2 => (upTo r.ng).foldl (fun s n => s.setU gid n (BitVec.ofNat 64 (fieldLE b (8 * n) 8))) s
  | 3 => (upTo r.tregs).foldl (fun s n => s.setT gid n (BitVec.ofNat 256 (fieldLE b (32 * n) 32))) s
  | 4 =>
    let s := (upTo 8).foldl (fun s n => s.setPin gid n (BitVec.ofNat 64 (fieldLE b (8 * n) 8))) s
    { s with pinDir := Tab.keep s.pinDir (fun k _ => k / 8 != gid) }
  | 6 => b.zipIdx.foldl (fun s x => s.setOpByte gid x.2 x.1.toNat) s
  | 7 => s.wrBytes (s.allocRange gid).1 b
  | k => s.setAcc gid (k - 8) (accOf b)
/-- A plane pair that a claim discarded is loaded again from the operand buffer by its tag (R253). -/
def State.reloadPlanes (s : State) (gid : Nat) : State :=
  let re := fun (s : State) (p : Plane) => s.fillPlane gid p.tag p.k0 p.e
  let s := match s.planesA.find gid with | some p => { s with planesA := s.planesA.put gid (re s p) } | none => s
  match s.planesS.find gid with | some p => { s with planesS := s.planesS.put gid (re s p) } | none => s
/-- Returns every spilt unit of a group (R149). -/
def State.restoreGroup (s : State) (gid : Nat) : State :=
  let g := s.group gid
  let cs := (s.units gid).filter g.isSpilt
  let s := if cs.contains 7 then s.takeScrRange (coreOf gid) g.space (s.allocRange gid).1
      (s.launch g.launch).record.allocBytes else s
  let s := cs.foldl (fun s c => s.loadUnit gid c) s
  let s := s.updGroup gid (fun g => { g with spilt := 0, accSpilt := 0, digests := [] })
  if cs.any (8 ≤ ·) then s.reloadPlanes gid else s

/-! ## Halting (R146, R150) -/

/-- The groups of a co-resident instance. -/
def State.instGroups (s : State) (launch inst : Nat) : List Nat :=
  (s.groups.filter (fun e => e.2.launch == launch && e.2.inst == inst)).map (·.1)
/-- A co-resident instance halts in place: every group, on every core (R146). -/
def State.haltInst (s : State) (launch inst : Nat) : State :=
  let s := (s.instGroups launch inst).foldl (fun s g => s.updGroup g (fun x =>
    { x with haltAt := if x.halted then x.haltAt else s.stamp, halted := true, haltDue := false, records := 0 })) s
  { s with stamp := s.stamp + 1 }
/-- A halt of an instance falls due: it waits out the holds of the instance's groups (R150). -/
def State.dueInst (s : State) (launch inst : Nat) : State :=
  (s.instGroups launch inst).foldl (fun s g => s.updGroup g (fun x => { x with haltDue := !x.halted })) s
/-- Halts that no hold keeps waiting take place. -/
def State.settleHalts (s : State) : State :=
  (s.groups.filter (fun e => e.2.haltDue)).foldl (fun s e =>
    if (s.group e.1).haltDue && (s.instGroups e.2.launch e.2.inst).all (fun g => (s.group g).hold == none) then
      s.haltInst e.2.launch e.2.inst
    else s) s

/-! ## Stops and dumps (R308, R309, R360) -/

/-- Threads of a group that stand at BAR.LEVEL k and have arrived (R309). -/
def State.arrivedMask (s : State) (gid k : Nat) : Nat :=
  maskOf ((s.live gid).filter (fun t =>
    let h := s.thread t
    if k = 1 then (match h.st with | .waiting (.converge _) => true | _ => false) &&
      (match s.instrAt (coreOf gid) (s.group gid).space h.pc with | some (.bar f) => f.imm == 1 | _ => false)
    else h.arrived.contains h.pc &&
      (match s.instrAt (coreOf gid) (s.group gid).space h.pc with | some (.bar f) => f.imm.toNat == k | _ => false)))
/-- A store-fault record (R292). -/
def PStore.record (x : PStore) : List Byte :=
  let n := x.data.length
  toLE 8 (x.va / 32 * 32) ++ toLE 4 ((2 ^ n - 1) * 2 ^ (x.va % 32)) ++ toLE 2 (gidOf x.tid % 512) ++ toLE 1 (level0 x.tid) ++
  toLE 1 (x.scope % 8 + x.order % 4 * 8 + 32 * bit x.atom.isSome) ++ toLE 8 x.code.toNat ++ toLE 8 x.atRet ++
  fit 32 (List.replicate (x.va % 32) 0 ++ x.data)

/-- The groups of a workgroup by group index. -/
def State.wgList (s : State) (gid : Nat) : List Nat :=
  let n := (s.launch (s.group gid).launch).record.wgGroups
  (upTo n).filterMap (fun i => (s.wgMates gid).find? (fun m => (s.group m).gidx == i))
/-- The image of a group in a dump, by offset: the header and every section it holds, a spilt one as it stands in the save area; the
spans of exited threads are left unwritten (R169). -/
def State.dumpImage (s : State) (gid : Nat) : List (Nat × List Byte) :=
  let g := s.group gid
  (0, s.saveHeader gid g.spilt.toNat) :: (s.units gid).flatMap (fun u =>
    let at' := (s.unitSpan gid u).1
    if g.isSpilt u then (s.secPlaces gid u).map (fun x => (at' + x.1, s.rdBytes (s.saveBase gid + at' + x.1) x.2))
    else (s.secSpans gid u).map (fun x => (at' + x.1, x.2)))
/-- The size of a dump, and what it writes by offset (R309). -/
def State.dump (s : State) (gid : Nat) : Nat × List (Nat × List Byte) :=
  let gs := s.wgList gid
  let l := s.launch (s.group gid).launch
  let w := l.record.wgLevel
  let held := (s.stores.filter (fun e => e.2.held && gs.contains (gidOf e.2.tid))).map (fun e => e.2.record)
  let list := toLE 8 held.length ++ held.flatten
  let listAt := 256 + 128 * gs.length
  let first := roundUp (listAt + list.length) 256
  let ends := gs.foldl (fun (a : List Nat × Nat) g => (a.1 ++ [a.2], a.2 + saveBytes (s.sections g))) ([], first)
  let offs := ends.1
  let head := toLE 4 0x5453584B ++ toLE 2 1 ++ toLE 2 gs.length ++ toLE 8 l.seq ++
    (upTo 6).flatMap (fun i => toLE 2 (if i + 2 < w then 0 else (s.group gid).level (i + 2))) ++
    (upTo 7).flatMap (fun i => toLE 4 (s.bars.getD (s.barKey ((gs.head?).getD gid) (i + 1)) 0)) ++ toLE 8 listAt
  let desc := fun (x : Nat × Nat) =>
    fit 128 (toLE 2 (x.1 % 512) ++ toLE 2 (s.group x.1).gidx ++ toLE 4 0 ++
      (upTo 7).flatMap (fun i => toLE 8 (s.arrivedMask x.1 (i + 1))) ++ toLE 8 x.2)
  (ends.2, (0, fit listAt (fit 256 head ++ (gs.zip offs).flatMap desc) ++ fit (first - listAt) list) ::
    (gs.zip offs).flatMap (fun x => (s.dumpImage x.1).map (fun y => (x.2 + y.1, y.2))))

/-- The checks of R308 on a dump's place. -/
def State.dumpOk (s : State) (gid addr len : Nat) : Bool :=
  let space := (s.group gid).space
  addr % frameBytes == 0 && (s.dump gid).1 ≤ len && 0 < len &&
  (upTo ((len + frameBytes - 1) / frameBytes)).all (fun i =>
    match s.xlate space none (addr + i * frameBytes) with
    | .leaf pa e => e.kind == 0 && e.owner == space && (match frameOf pa with | some f => (s.frame f).fix | none => false)
    | _ => false)
/-- Completes a stop whose instance has halted and whose workgroup has no pending fill (R308, R360); a STOP whose range does not hold the
dump any longer is INVALID and keeps nothing stopped. The dump waits while a granule under it is still to be copied aside (R185, R190). -/
def State.finishStop (s : State) (q : StopReq) : State :=
  let g := s.group q.gid
  let gs := s.wgMates q.gid
  let inst := s.instGroups g.launch g.inst
  if !inst.all (fun x => (s.group x).halted) || s.fills.any (fun e => gs.contains (gidOf e.2.tid)) then s
  else
    let ok := (q.who.isSome || q.addr != 0) && s.dumpOk q.gid q.addr q.len
    match (if ok then s.asideFor g.space ((upTo (((s.dump q.gid).1 + frameBytes - 1) / frameBytes)).map (fun i => q.addr + i * frameBytes))
           else some s) with
    | none => s
    | some s =>
    let s1 := { s with stops := s.stops.filter (· != q) }
    let s2 := if ok then (s.dump q.gid).2.foldl (fun s x => s.storeVa g.space (q.addr + x.1) x.2) s1 else s1
    let traced := fun (s : State) => s.trace g.space (coreOf q.gid) (q.gid % 512) 8 (toLE 8 (if ok then q.addr else 0))
    match q.who with
    | some w =>
      if ok then (traced s2).answer w 0
      else (inst.foldl (fun s x => s.updGroup x (fun h => { h with stopped := false })) s2).answer w 2
    | none => traced s2
/-- Waits of a suspended thread that end for good when what it waits for comes, also while its group is halted (R362, R402, R422). -/
def Wait.latches : Wait → Bool
  | .phase .. | .tile .. | .drain _ | .room .. | .snap _ | .bar _ => true
  | _ => false
/-- The result that a wait of QCTL ends with (R399). -/
def State.roomWord (s : State) (space cw : Nat) : W64 :=
  match (s.cwQueue space cw).bind (fun x => s.freshQueue space x.1) with
  | some q => BitVec.ofNat 64 (qctlWord 0 q)
  | none => BitVec.ofNat 64 (2 ^ 48)
/-- A thread whose wait is over goes on (R137): the result of a QCTL is in place and it stands at the next address; a SNAP is still to take
its snapshot, with the threads that share it (R400), and a barrier object that cannot be read is met again (R295). -/
def State.goOn (s : State) (tid : Nat) : State :=
  match s.instrAt (coreOf (gidOf tid)) (s.spaceOf tid) (s.thread tid).pc with
  | some (.snap _) => { s.updThread tid (fun t => { t with st := .ready, since := s.stamp }) with stamp := s.stamp + 1 }
  | some (.qctl f) =>
    let s := match (s.thread tid).result with | some x => s.wr64 tid f.data x | none => s
    (s.updThread tid (fun t => { t with result := none })).retireAt tid
  | _ => s.retireAt tid
/-- The wait of a thread that latches is over: it goes on, or is marked done in a halted group (R137). -/
def State.endWait (s : State) (tid : Nat) (w : Wait) : State :=
  let space := s.spaceOf tid
  match w with
  | .snap _ => if (s.group (gidOf tid)).halted then s.updThread tid (fun t => { t with st := .replied }) else s
  | .phase pa _ =>
    if !s.poisoned pa 16 then s.goOn tid
    else if (s.group (gidOf tid)).halted then s
    else { s.updThread tid (fun t => { t with st := .ready, since := s.stamp }) with stamp := s.stamp + 1 }
  | .bar _ => (s.updThread tid (fun t => { t with arrived := t.arrived.filter (· != t.pc) })).goOn tid
  | .room cw _ =>
    let s := s.updThread tid (fun t => { t with result := some (s.roomWord space cw) })
    if (s.group (gidOf tid)).halted then s.updThread tid (fun t => { t with st := .replied }) else s.goOn tid
  | _ => s.goOn tid
/-- Waits that latch and are over end (R137); a thread that has a report to take takes it at its instruction first. -/
def State.endLatched (s : State) : State :=
  s.threads.foldl (fun s e =>
    match e.2.st with
    | .waiting w =>
      if w.latches && (s.threads.find e.1).isSome && (e.2.reports == [] || e.2.inHandler) && s.waitOver e.1 w then s.endWait e.1 w else s
    | _ => s) s
/-- What is due after a step: halts that no hold keeps waiting, waits that are over, and stops that can be completed. -/
def State.settle (s : State) : State :=
  let s := if s.groups.any (fun e => e.2.haltDue) then s.settleHalts else s
  let s := if s.threads.any (fun e => match e.2.st with | .waiting w => w.latches | _ => false) then s.endLatched else s
  s.stops.foldl (fun s q => s.finishStop q) s

/-- Starts a stop of a group's co-resident instance (R308): it waits out holds; its groups stay halted until RESUME. -/
def State.startStop (s : State) (q : StopReq) : State :=
  let g := s.group q.gid
  let s := (s.dueInst g.launch g.inst).settleHalts
  let s := (s.instGroups g.launch g.inst).foldl (fun s x => s.updGroup x (fun h => { h with stopped := true })) s
  ({ s with stops := s.stops ++ [q] }).finishStop q

/-- The group in a slot, as a command names it: 2 INVALID out of range, 1 REFUSED for a slot that is free or not the owner's,
or a session without the right, 4 BUSY in a sealed act of the partition (R49, R68). -/
def State.slotFor (s : State) (who : Who) (die core slot : Nat) : Except Nat Nat :=
  if 4 ≤ die ∨ 64 ≤ core ∨ 512 ≤ slot then .error 2
  else
    let gid := (die * 64 + core) * 512 + slot
    match who, s.groups.find gid with
    | .owner p, some g => if g.space ≠ p then .error 1 else if (s.part p).sealed || (s.part p).frozen then .error 4 else .ok gid
    | .owner p, none => if (s.part p).sealed || (s.part p).frozen then .error 4 else .error 1
    | _, none => .error 1
    | _, some _ => .error 1

/-- STOP (R308). -/
def execStopWg (who : Who) (die core slot addr len : Nat) (s : State) : Host.Outcome State Fault Refusal :=
  match s.slotFor who die core slot with
  | .error e => .next (s.answer who e)
  | .ok gid =>
    if !s.dumpOk gid addr len then .next (s.answer who 2)
    else .next (s.startStop { gid := gid, addr := addr, len := len, who := some who })
/-- RESUME (R308): the stopped groups may be dispatched again under R149. -/
def execResumeWg (who : Who) (die core slot : Nat) (s : State) : Host.Outcome State Fault Refusal :=
  match s.slotFor who die core slot with
  | .error e => .next (s.answer who e)
  | .ok gid =>
    let g := s.group gid
    .next (((s.instGroups g.launch g.inst).foldl (fun s x => s.updGroup x (fun h => { h with stopped := false })) s).answer who 0)
/-- HALT (R360): for each workgroup with an acting lane, with the operands of its highest acting lane. -/
def execHaltW (f : VForm) (s : State) : Host.Outcome State Fault Refusal :=
  let op : LaneOp := { uses := (Instr.haltW f).uses, act := fun _ c t => c.updGroup (gidOf t) (fun g => { g with hold := none }) }
  let acting := if op.clean s then s.cur.lanes.filter (fun t => op.lane s t == .act) else []
  let wg := fun (t : Nat) => (s.group (gidOf t)).scrBase
  let laneIn := fun (t : Nat) => (s.group (gidOf t)).laneBase + level0 t
  let tops := acting.filter (fun t => acting.all (fun u => laneIn u ≤ laneIn t || wg u != wg t || coreOf (gidOf u) != coreOf (gidOf t)))
  .next (tops.foldl (fun c t => c.startStop { gid := gidOf t, addr := (s.src64 t f.a).toNat % vaMod, len := (s.src32 t f.b).toNat,
                                              who := none }) (op.run s))

/-! ## REGRD and REGWR (R167) -/

/-- The register a command names: its SPILT class, and whether it is gated (R166). -/
def State.regGated (s : State) (gid cls thread number : Nat) : Bool :=
  let r := (s.launch (s.group gid).launch).record
  let gone := (s.thread (gid * 64 + thread)).st == .exited
  match cls with
  | 0 => r.nv ≤ number || gone
  | 1 => r.ng ≤ number
  | 2 => number != 0 && (!r.pclass || gone)
  | _ => !r.pinclass
def regClassBit (cls : Nat) : Nat := match cls with | 0 => 0 | 1 => 2 | 2 => 1 | _ => 4
def regName (gid cls thread number : Nat) : Option RegName :=
  match cls with
  | 0 => some (.v (gid * 64 + thread) number)
  | 1 => some (.u gid number)
  | 2 => if number = 0 then none else some (.p (gid * 64 + thread) number)
  | _ => none
/-- The value of a register, from the core or from the save area. -/
def State.regValue (s : State) (gid cls thread number : Nat) : Nat :=
  let g := s.group gid
  let spilt := g.spilt.getLsbD (regClassBit cls)
  let r := (s.launch g.launch).record
  let save := fun (o n : Nat) => leNat (s.rdBytes (s.saveBase gid + s.secOffset gid (regClassBit cls) + o) n)
  match cls with
  | 0 => if spilt then save (4 * (thread * r.nv + number)) 4 else (s.getV (gid * 64 + thread) number).toNat
  | 1 => if spilt then save (8 * number) 8 else (s.getU gid number).toNat
  | 2 => if number = 0 then 0xFF else if spilt then save (32 * thread + number) 1 else (s.getP (gid * 64 + thread) number).toNat
  | _ => if spilt then save (8 * number) 8 else (s.getPin gid number).toNat
/-- Outcome code and value (R167). -/
def State.regProbe (s : State) (gid cls thread number : Nat) : Nat × Nat :=
  if cls = 2 ∧ number = 0 then (0, 0xFF)
  else if s.regGated gid cls thread number then (1, 0)
  else if (match regName gid cls thread number with | some n => s.isEmpty n | none => false) then (2, 0)
  else if (s.group gid).spilt.getLsbD (regClassBit cls) then (3, s.regValue gid cls thread number)
  else (0, s.regValue gid cls thread number)
/-- The checks of a register command. -/
def State.regCmd (s : State) (who : Who) (die core slot cls thread number : Nat) : Except Nat Nat :=
  match s.slotFor who die core slot with
  | .error e => .error e
  | .ok gid =>
    let g := s.group gid
    let max := match cls with | 0 => 256 | 1 => 64 | 2 => 16 | _ => 8
    if 3 < cls ∨ max ≤ number ∨ ((cls = 0 ∨ cls = 2) ∧ g.width ≤ thread) ∨ !g.halted then .error 2 else .ok gid
/-- The pattern of R52 at the width of a class. -/
def refusedReg (cls : Nat) : Nat := match cls with | 0 => 0xDEAD0000 | 2 => 0xDE | _ => refusedWord
/-- REGRD (R167): the value, and the outcome code beside it in the reply. -/
def execRegrd (who : Who) (die core slot cls thread number : Nat) (s : State) : Host.Outcome State Fault Refusal :=
  match s.regCmd who die core slot cls thread number with
  | .error 1 => .next (s.answer who 1 [BitVec.ofNat 64 (refusedReg cls)])
  | .error e => .next (s.answer who e)
  | .ok gid =>
    let x := s.regProbe gid cls thread number
    .next (s.answer who 0 [BitVec.ofNat 64 x.2, BitVec.ofNat 64 x.1])
/-- REGWR (R167): a full register that is on the core is written; a pin register as by a PIN or an UNPIN (R227). -/
def execRegwr (who : Who) (die core slot cls thread number : Nat) (v : W64) (s : State) : Host.Outcome State Fault Refusal :=
  match s.regCmd who die core slot cls thread number with
  | .error e => .next (s.answer who e)
  | .ok gid =>
    let x := s.regProbe gid cls thread number
    let t := gid * 64 + thread
    -- a write of a pin register acts as a PIN or UNPIN: it waits for the earlier accesses of the group (R218, R227)
    if x.1 = 0 ∧ 3 ≤ cls ∧ (s.live gid).any (fun t => s.fillsPending t || s.storesPending t) then .next s else
    let s1 := if x.1 ≠ 0 then s else match cls with
      | 0 => s.setV t number (v.truncate 32)
      | 1 => s.setU gid number v
      | 2 => s.setP t number (v.truncate 8)
      | _ => if pinV v then s.setPinName gid number (pinName v) else s.clearPin gid number
    .next (s1.answer who 0 [BitVec.ofNat 64 x.1])

end Sys2Proof.Machine
end

