-- ==== Sys2Proof/Machine/Issue.lean ====
section
/-! DEFINITION. Issue: when a waiting thread goes on (R137, R141, R143), reports that are due (R288, R293), the issue group of a
code address (R138, R139), the checks of the line and the slot (R335), lane-slot counts (R302), the passing of time (R152), and
the events REPORT_DELIVERY, LOAD_FILL, STORE_RESOLVE, SLEEP_WAKE, YIELD_READY and UNCORRECTABLE_ERROR. -/
namespace Sys2Proof.Machine

/-! ## Reports (R277, R288, R293, R363, R421) -/

/-- Instructions that wait for the stores of their thread to resolve (R293). -/
def Instr.waitsStores : Instr → Bool
  | .st f | .stn f | .stu f | .atom f | .atomf f | .red f => f.ord == 2 || f.ord == 3
  | .fence f => f.ord == 2 || f.ord == 3
  | .arrive _ | .arriveI _ | .bar _ | .tfill _ | .tempty _ | .drainst _ | .snap _ | .reclaim _ | .exitT _ | .unpin _ => true
  | _ => false
/-- Whether the first report of a thread is known in program order: a fault of a store is not while an earlier store of the thread may
still turn out to fault (R293). -/
def State.reportKnown (s : State) (tid : Nat) : Bool :=
  match (s.thread tid).reports with
  | r :: _ => !(r.cause == .storeFault || r.cause == .pageLost) || !(s.ownStores tid).any (fun e => e.2.atRet < r.i0.toNat && s.mayFault e.2)
  | [] => false
/-- Whether a thread takes a report where it stands: not in a handler, not halted, and not suspended in SCALL, SIGRD or a
residency fault (R277). -/
def State.mayReport (s : State) (tid : Nat) : Bool :=
  let t := s.thread tid
  s.reportKnown tid && !t.inHandler && !(s.group (gidOf tid)).halted &&
  (match t.st with
    | .ready => true
    | .waiting (.call _) | .waiting (.callRing _) | .waiting (.page _) | .waiting .report | .waiting (.fetch _) => false
    | .waiting _ => true
    | _ => false)
/-- The bytes that a TLOAD still had in flight land, and its thread stays there (R421). -/
def State.finishTload (s : State) (tid : Nat) : State :=
  let s := s.updThread tid (fun t => { t with st := .ready })
  (s.tloads.filter (fun e => e.2.tid == tid)).foldl (fun s e =>
    (rangesAll e.2.left).foldl (fun s k =>
      match s.tloads.find e.1 with
      | some x => s.landTload e.1 k x
      | none => s) s) s
/-- A thread takes the first of its reports, with REEXEC set when it stands at an instruction that waits (R285, R293). -/
def State.takeReport (s : State) (tid : Nat) : State :=
  if !s.mayReport tid then s
  else
    let t := s.thread tid
    let waiting := match t.st with | .ready | .waiting (.yield _) => false | _ => true
    let imp := match t.reports with | r :: _ => r.cause == .storeFault || r.cause == .pageLost | [] => false
    let at' := match s.instrAt (coreOf (gidOf tid)) (s.spaceOf tid) t.pc with | some i => Instr.waitsStores i | none => false
    let s := if t.st == TState.waiting .tload then s.finishTload tid else s
    s.deliver tid (waiting || (imp && at'))
/-- REPORT_DELIVERY (R288, R293). -/
def execReportDelivery (tid : Nat) (s : State) : Host.Outcome State Fault Refusal := .next (s.takeReport tid)

/-- The boundary before the 65th instruction after a store: the store is resolved here if it was not (R293). -/
def State.skidBound (s : State) (tid : Nat) : State :=
  if (s.thread tid).inHandler then s
  else (s.ownStores tid).foldl (fun s e =>
    if !e.2.held && e.2.atRet + 64 ≤ (s.thread tid).retired then s.resolveStore Flt.atomF e.1 else s) s

/-! ## The issue group (R138, R139, R141) -/

/-- The first lane of a group's range plus LEVEL0 (R136). -/
def State.laneOf (s : State) (tid : Nat) : Nat := (s.group (gidOf tid)).laneBase + level0 tid
/-- A core issues only while its clock is not relocking and its cluster is in service (R33, R38). -/
def State.coreRuns (s : State) (core : Nat) : Bool := let i := s.pkg.islands.getD (core / 8) {}; !i.relock && !i.wdrawn

/-! ## The Grate (R138, R141, R142) -/

/-- Waits at an instruction that its pipe or an order of its accesses keeps from issuing: the thread is still ready (R137), and keeps
its age. -/
def Wait.ready : Wait → Bool
  | .unheld | .sector _ | .stores | .skid | .accesses | .released _ | .tileReg _ | .pipe _ | .fetch _ => true
  | _ => false
/-- An entry without the threads that are no longer ready at its address. -/
def State.pruneEnt (s : State) (core : Nat) (e : GrateEnt) : GrateEnt :=
  { e with threads := e.threads.filter (fun t => coreOf (gidOf t) == core &&
      (match s.threads.find t, s.groups.find (gidOf t) with
        | some h, some g => h.st == .ready && h.pc == e.addr && g.space == e.space && !g.halted
        | _, _ => false)) }
/-- The entries of a Grate that still hold ready threads. -/
def State.grateOf (s : State) (core : Nat) : List GrateEnt :=
  ((s.grates.getD core []).map (s.pruneEnt core)).filter (fun e => e.threads != [])
/-- Puts threads into the entry of their key, or into a free one; `none` where a lane is taken or no entry is free: they wait in the
overflow chain (R138). -/
def State.enterGrate (s : State) (es : List GrateEnt) (addr : Addr) (space : Nat) (ts : List Nat) : Option (List GrateEnt) :=
  let mine := fun (e : GrateEnt) => e.addr == addr && e.space == space
  match es.find? mine with
  | some e =>
    if e.threads.all (fun u => ts.all (fun t => s.laneOf t != s.laneOf u)) then
      some (es.map (fun x => if mine x then { x with threads := x.threads ++ ts } else x))
    else none
  | none => if es.length < 96 then some (es ++ [{ addr := addr, space := space, threads := ts }]) else none
/-- A thread whose wait is over becomes ready, with a new age unless it was ready all the while (R142); one that waits takes a report
that is due (R277); one whose instruction waits for a pending token waits for it (R137). -/
def State.wakeThread (s : State) (core tid : Nat) : State :=
  let s := match (s.thread tid).st with
    | .waiting (.converge _) => if s.mayReport tid then s.takeReport tid else s
    | .waiting w =>
      if s.waitOver tid w && (!w.latches || w.isSnap) then
        { s.updThread tid (fun t => { t with st := .ready, since := if w.ready then t.since else s.stamp }) with stamp := s.stamp + 1 }
      else if s.mayReport tid then s.takeReport tid
      else s
    | _ => s
  let h := s.thread tid
  let mask := s.waitMask core (s.spaceOf tid) h.pc
  if h.st == .ready && (s.group (gidOf tid)).pending mask then s.toWait tid (.tokens mask) else s
/-- Threads of a list in order of age. -/
def State.byAge (s : State) (ts : List Nat) : List Nat :=
  ts.foldl (fun l t => let x := (s.thread t).since
                       l.takeWhile (fun u => (s.thread u).since ≤ x) ++ t :: l.dropWhile (fun u => (s.thread u).since ≤ x)) []
/-- One thread joins the Grate, or its whole group where it has converged (R143). One that finds no place waits in the overflow chain, and
its age counts from when it leaves that (R138, R141). -/
def State.joinThread (s : State) (es : List GrateEnt) (tid : Nat) : State × List GrateEnt :=
  let h := s.thread tid
  let space := s.spaceOf tid
  match h.st with
  | .ready =>
    if es.any (fun e => e.threads.contains tid) then (s, es)
    else match s.enterGrate es h.pc space [tid] with
      | some es' =>
        (if h.chained then { s.updThread tid (fun t => { t with chained := false, since := s.stamp }) with stamp := s.stamp + 1 } else s, es')
      | none => (if h.chained then s else s.updThread tid (fun t => { t with chained := true }), es)
  | .waiting (.converge _) =>
    let ts := s.live (gidOf tid)
    if !s.converged (gidOf tid) h.pc then (s, es)
    else match s.enterGrate es h.pc space ts with
      | some es => ({ ts.foldl (fun s t => s.updThread t (fun x => { x with st := .ready, since := s.stamp })) s with
                      stamp := s.stamp + 1 }, es)
      | none => (s, es)
  | _ => (s, es)
/-- The ready threads of a core join its Grate, oldest first (R138, R141). -/
def State.joinGrate (s : State) (core : Nat) : State :=
  let mine := fun (s : State) => (s.threads.map (·.1)).filter (fun t => coreOf (gidOf t) == core && !(s.group (gidOf t)).halted)
  let s := (mine s).foldl (fun s t => s.wakeThread core t) s
  let x := (s.byAge (mine s)).foldl (fun (x : State × List GrateEnt) t => x.1.joinThread x.2 t) (s, s.grateOf core)
  { x.1 with grates := x.1.grates.put core x.2 }
/-- Whether a pipe of a core accepts issue (R105, R141, R262). -/
def State.pipeOpen (s : State) (core : Nat) (p : Pipe) : Bool :=
  match p with
  | .m => decide (s.windowFlits core < 256) &&
      !(decide (32 ≤ s.recordsHeld core) && (decide (0 < s.recordsDue core) ||
        s.threads.any (fun e => coreOf (gidOf e.1) == core && e.2.st == .waiting (.pipe 0))))
  | .a => !s.matFull core
  | _ => true
/-- The age of an entry: that of its oldest thread. -/
def State.entAge (s : State) (e : GrateEnt) : Nat := (e.threads.map (fun t => (s.thread t).since)).foldl min ((s.stamp + 1))
/-- Whether each pipe that an entry needs may select it (R141): the pipe accepts issue, and every older entry of that pipe has fewer
than 16 lanes while this one has not, since those may be in the quarter-full hold (log 4). -/
def State.selectable (s : State) (core : Nat) (e : GrateEnt) : Bool :=
  let others := (s.grates.getD core []).filter (fun x => decide (s.entAge x < s.entAge e))
  (s.pipesAt core e.space e.addr).all (fun p => s.pipeOpen core p && others.all (fun x =>
    !(s.pipesAt core x.space x.addr).contains p || (decide (x.threads.length < 16) && decide (16 ≤ e.threads.length))))
/-- Takes the entry of a key out of the Grate for issue: its threads in ascending lane order (R139), if its pipes select it. -/
def State.takeEntry (s : State) (core space : Nat) (addr : Addr) : Option (List Nat × State) :=
  let es := s.grates.getD core []
  match es.find? (fun e => e.addr == addr && e.space == space) with
  | some e =>
    if s.selectable core e then
      some ((upTo 64).flatMap (fun l => e.threads.filter (fun t => s.laneOf t == l)),
            { s with grates := s.grates.put core (es.filter (· != e)) })
    else none
  | none => none

/-! ## Lane-slot counts (R302) -/

/-- The class of a lane of a core for an issue group. -/
def State.laneClass (s : State) (core space : Nat) (lanes : List Nat) (h : Header) (lane : Nat) : Nat :=
  match lanes.find? (fun t => s.laneOf t == lane) with
  | some t => if s.guardOn h t then 0 else 1
  | none =>
    let on := s.threads.filter (fun e => coreOf (gidOf e.1) == core && e.2.st != .exited && s.laneOf e.1 == lane)
    if on.any (fun e => lanes.any (fun t => gidOf t == gidOf e.1)) then 2
    else if on.any (fun e => s.spaceOf e.1 == space) then 3 else 4
/-- The bin of a code address for a space. -/
def State.laneBin (s : State) (space : Nat) (addr : Addr) : Nat :=
  ((upTo 16).find? (fun k =>
    let b := (space * 16 + k) * 2
    (s.lcb.getD b 0).toNat ≤ addr.toNat && addr.toNat < (s.lcb.getD (b + 1) 0).toNat)).getD 16
/-- Issue slots that an instruction takes: one, two by verified issue, or three where the first two disagree (R294). -/
def State.issueSlots (s : State) (core : Nat) (vector : Bool) : Nat := if !vector then 1 else if (s.verify.find core).isSome then 3 else 2
/-- Counts an issue of some lanes, classified in the state in which it issued: 64 lanes for each slot that carries it, a second and a third
issue classified as the first (R294, R302). -/
def State.countIssue (s pre : State) (lanes : List Nat) (vector : Bool) : State :=
  let c := pre.cur
  let n := pre.issueSlots c.core vector
  let cls := (upTo 64).map (pre.laneClass c.core c.space lanes (decHeader c.raw))
  let bin := pre.laneBin c.space c.pc
  if lanes = [] then s
  else
    let s := (upTo 5).foldl (fun s x => let k := cls.countP (· == x); if k = 0 then s else s.bump 0 c.space (8 * bin + x) (n * k)) s
    let launch := match lanes with | t :: _ => (pre.group (gidOf t)).launch + 2 | [] => 0
    { s with issued := s.issued.put c.core (s.issued.getD c.core 0 + BitVec.ofNat 64 n) }.addWork 0 (c.core / 8) c.space launch n
/-- The lanes of an issue group that issued: not those that were dropped and wait at the instruction (R142, R302). -/
def State.issuedLanes (pre post : State) : List Nat :=
  pre.cur.lanes.filter (fun t => match post.threads.find t with
    | some h => !(h.pc == pre.cur.pc && (match h.st with | .waiting w => !w.begun | _ => false))
    | none => true)

/-! ## Issuing (R317, R318, R335) -/

/-- Threads of one issue group that consume one error together: one consumption for each launch (R297). -/
def State.consumeLanes (s : State) (core : Nat) (lanes : List Nat) : State :=
  ((lanes.map (fun t => (s.group (gidOf t)).launch)).eraseDups).foldl (fun s l => s.consume l (dieOf core)) s
/-- Every thread of a list traps with one cause. -/
def State.trapThese (s : State) (pc : Addr) (ts : List Nat) (x : TrapInfo) : State := s.trapAll pc (ts.map (fun t => (t, x)))

/-- A fetch marks the frame of its line as referenced (R89). -/
def State.touchLine (s : State) (core space : Nat) (addr : Addr) : State :=
  match s.xlate space (some core) addr.toNat with | .leaf pa _ => s.touch pa | _ => s
/-- A thread waits for its line from host memory (R43). -/
def State.awaitLine (s : State) (tid pa : Nat) : State := (s.toWait tid (.fetch pa)).askLine tid pa
/-- Issues the threads `lanes` at a code address, down to the decoded instruction that acts in the state answered: the checks
of R335 in their order. `alone` when they come by the second slot of a pair that has begun. -/
def State.issueLanes (s : State) (core space : Nat) (addr : Addr) (lanes : List Nat) (alone : Bool) : Option Instr × State :=
  let past := lanes.filter (fun t => (s.thread t).pastEnd)
  if lanes = [] then (none, s)
  else if past ≠ [] then
    (none, s.trapThese addr past { cause := .permLoad, i1 := addr.zeroExtend 64, i2 := 1, i3 := addr.zeroExtend 64 })
  else
    let target : TrapInfo := { cause := .badTarget, i3 := addr.zeroExtend 64 }
    if !isCode addr then (none, s.trapThese addr lanes target)
    else match s.fetch core space addr.toNat addr.toNat with
    | .trap t => (none, s.trapThese addr lanes t)
    | .wait => (none, (lanes.foldl (fun s t => s.toWait t (.page addr.toNat)) s).faultPages 8 lanes)
    | .bad => (none, s.consumeLanes core lanes)
    | .line b =>
      let slot := slotOf addr
      let s := s.touchLine core space addr
      let lw := lineWord b
      let w := slotWord b slot
      let paired := (pairsOf (lw / 2 ^ 10 % 16)).contains slot && !alone
      let good := pairAt b slot && !alone
      let mask := maskOfSlot b slot
      let host := s.hostLine core space addr.toNat
      let away := match host with | some pa => lanes.filter (fun t => !(s.thread t).lines.contains pa) | none => []
      let s := match host with | some pa => away.foldl (fun s t => s.awaitLine t pa) s | none => s
      let lanes := lanes.filter (fun t => !away.contains t)
      let stay := if alone then [] else lanes.filter (fun t => (s.group (gidOf t)).pending mask)
      let s := stay.foldl (fun s t => s.toWait t (.tokens mask)) s
      let lanes := lanes.filter (fun t => !stay.contains t)
      let s := lanes.foldl (fun s t => s.updThread t (fun x => { x with st := .ready })) s
      if lanes = [] then (none, s)
      else if lw / 2 ^ 16 ≠ 0 ∨ (paired ∧ !good) then (none, s.trapThese addr lanes (opTrap .illegalField w))
      else if ((upTo 96).countP (fun i => w.testBit i) + lw / 2 ^ (5 + slot)) % 2 = 1 then (none, s.consumeLanes core lanes)
      else
        let row := opRow (w % 1024)
        let pipe := pipeOf w
        -- a search that waits at the limit keeps the memory pipe from its group (R224)
        let searching := if pipe = .m then lanes.filter (fun t => (s.live (gidOf t)).any (fun u =>
          u != t && (s.thread u).st == TState.waiting (.pipe 5))) else []
        let s := searching.foldl (fun s t => s.toWait t (.pipe 6)) s
        let lanes := lanes.filter (fun t => !searching.contains t)
        let s := { s with cur := { core := core, space := space, pc := addr, raw := w, lanes := lanes, last := lastLine b,
                                   first := good, tgt := tgtBit b slot, serial := s.stamp },
                          stamp := s.stamp + 1 }
        let traps := fun (c : Cause) => (none, (s.trapThese addr lanes (opTrap c w)).countIssue s lanes (pipe == .v))
        if lanes = [] then (none, s)
        else if row.isNone && w % 1024 != 0 then traps .illegalOp
        else if space = 64 && !auditorMay w then traps .rights
        else match decode w with
          | .error .illegalOp => traps .illegalOp
          | .error .illegalField => traps .illegalField
          | .ok i =>
            (some i, if good then { s with agenda := .pair core (nextAddr addr) space lanes :: s.agenda } else s)

/-- The boundary before an instruction, for threads that are ready at its address (R293): a store that is 64 instructions back is resolved,
a report that is due comes first, and a thread waits while such a store may still turn out to fault. Answers those that issue. -/
def State.boundary (s : State) (addr : Addr) (lanes : List Nat) : List Nat × State :=
  let s1 := lanes.foldl (fun s t => (s.skidBound t).takeReport t) s
  let s2 := lanes.foldl (fun s t => if (s.thread t).pc == addr && (s.thread t).st == .ready && s.skidPending t then s.toWait t .skid else s) s1
  (lanes.filter (fun t =>
    let h := s2.thread t
    (s2.threads.find t).isSome && h.pc == addr && h.st == .ready && !(h.inHandler && !(s.thread t).inHandler)), s2)
/-- The issue group of a code address, once the ready threads have joined (R138 to R141). -/
def State.issueGroup (s : State) (core space : Nat) (addr : Addr) : List Nat × State :=
  let s := s.joinGrate core
  match s.takeEntry core space addr with
  | none => ([], s)
  | some (lanes, s) => s.boundary addr lanes
/-- A core issues its threads at a code address. -/
def State.issue (s : State) (core space : Nat) (addr : Addr) : Option Instr × State :=
  if !s.coreRuns core then (none, s)
  else let x := s.issueGroup core space addr; x.2.issueLanes core space addr x.1 false
/-- The second slot of a pair issues for the threads that its first left there, in the same cycle (R140, R323). -/
def State.issuePair (s : State) (core space : Nat) (addr : Addr) (lanes : List Nat) : Option Instr × State :=
  let x := s.boundary addr (lanes.filter (fun t =>
    (s.threads.find t).isSome && (s.thread t).pc == addr && (s.thread t).st == TState.ready))
  x.2.issueLanes core space addr x.1 true

/-! ## Time (R33, R150, R152) -/

/-- Sixths of a reference tick rate at which a step runs: 6 at 2.7 GHz down to 2 at 0.9 GHz (R31). -/
def stepRate (step : Nat) : Nat := 6 - min step 4
def Island.step (i : Island) : Nat := max i.ceil i.therm
/-- The step at which a cluster runs: step 4 on the Ember die in Ember mode (R32, R35). -/
def State.clusterStep (s : State) (cluster : Nat) : Nat :=
  if s.pkg.ember && cluster / 8 == s.pkg.emberDie then 4 else (s.pkg.islands.getD cluster {}).step
/-- Cycles of a cluster while a die's count goes from `r` to `r + n`; none during a relock (R33). -/
def State.cyclesOf (s : State) (cluster r n : Nat) : Nat :=
  let i := s.pkg.islands.getD cluster {}
  if i.relock then 0 else (r + n) * stepRate (s.clusterStep cluster) / 6 - r * stepRate (s.clusterStep cluster) / 6
/-- Whether the time of a thread in YIELD or SLEEP is over at the latest: 16 cycles of its island clock, or 256 cycles of its group after
the count of a SLEEP (R368, R369). -/
def State.timeOver (s : State) (tid : Nat) : Bool :=
  match (s.thread tid).st with
  | .waiting (.yield till) => till ≤ (s.cycles (coreOf (gidOf tid))).toNat
  | .waiting (.sleep till) => !(s.group (gidOf tid)).halted && till + 256 ≤ (s.group (gidOf tid)).cycle.toNat
  | _ => false
/-- A thread in YIELD or SLEEP is ready again, at its next address (R368, R369). -/
def State.wakeTime (s : State) (tid : Nat) : State :=
  match (s.thread tid).st with
  | .waiting (.yield _) => { s.updThread tid (fun t => { t with st := .ready, since := s.stamp }) with stamp := s.stamp + 1 }
  | .waiting (.sleep _) => s.retireAt tid
  | _ => s
/-- Reference ticks pass on every die (R152): GTIME and CYCLE of running groups, STOLEN of halted ones, and the budget of a
hold; threads whose time is over are ready. -/
def State.elapse (s : State) (n : Nat) : State :=
  let adv := fun (c : Nat) => s.cyclesOf c (s.ref (c / 8)).toNat n
  let groups := s.groups.map (fun e =>
    let g := e.2
    let k := adv (coreOf e.1 / 8)
    (e.1, if g.halted then { g with stolen := g.stolen + BitVec.ofNat 64 n }
      else { g with gtime := g.gtime + BitVec.ofNat 64 n, cycle := g.cycle + BitVec.ofNat 64 k,
                    budget := if g.hold.isSome then g.budget - k else g.budget }))
  let clocks := (upTo 32).foldl (fun (t : Tab W64) c => t.put c (t.getD c 0 + BitVec.ofNat 64 (adv c))) s.coreCycle
  let refs := (upTo 4).foldl (fun (t : Tab W64) d => t.put d (t.getD d 0 + BitVec.ofNat 64 n)) s.refCount
  let s := { s with groups := groups, coreCycle := clocks, refCount := refs }
  (s.threads.filter (fun e => s.timeOver e.1)).foldl (fun s e => s.wakeTime e.1) s
/-- LCIDLE of a core (R302): the lane-slots of its five slots that issued nothing. -/
def State.lcIdle (s : State) (core : Nat) : W64 := 64 * (5 * s.cycles core - s.issued.getD core 0)

/-! ## Events of threads and their accesses -/

/-- LOAD_FILL (R162): a pending fill completes; an element in host memory comes by its port (R43). -/
def execLoadFill (id : Nat) (s : State) : Host.Outcome State Fault Refusal :=
  match s.fills.find id with
  | none => .next s
  | some f =>
    let host := match f.what with
      | .load _ els => els.any (fun o => match o with | some pa => inRegion 2 pa | none => false)
      | .atom pa .. => inRegion 2 pa
      | _ => false
    .next (if host then s else s.completeFill Flt.atomF id)
/-- STORE_RESOLVE (R291). -/
def execStoreResolve (id : Nat) (s : State) : Host.Outcome State Fault Refusal := .next (s.resolveStore Flt.atomF id)
/-- SLEEP_WAKE (R369): the count of the group's cycles has been reached. -/
def execSleepWake (tid : Nat) (s : State) : Host.Outcome State Fault Refusal :=
  match (s.thread tid).st with
  | .waiting (.sleep till) =>
    let g := s.group (gidOf tid)
    if g.cycle.toNat < till ∨ g.halted then .next s else .next (s.wakeTime tid)
  | _ => .next s
/-- YIELD_READY (R368). -/
def execYieldReady (tid : Nat) (s : State) : Host.Outcome State Fault Refusal :=
  match (s.thread tid).st with
  | .waiting (.yield till) =>
    if (s.cycles (coreOf (gidOf tid))).toNat < till then .next s else .next (s.wakeTime tid)
  | _ => .next s
/-- UNCORRECTABLE_ERROR (R294 to R298): a launch with groups placed consumes an error that none of its accesses shows: of a
register row, of a verified issue, of a line's parity. -/
def execUncorrectableError (id : Nat) (s : State) : Host.Outcome State Fault Refusal :=
  match s.groupsOf id with
  | g :: _ => .next (s.consume id (dieOf (coreOf g)))
  | [] => .next s

end Sys2Proof.Machine
end

