-- ==== Sys2Proof/Machine/Launch.lean ====
section
/-! DEFINITION. Launches: acceptance (R114 to R121, R123 to R128), the occupancy of cores and the claims of placements (R135,
R147), dispatch (R129, R132, R133, R187), and the end of a launch with its children, its task and its signature runs (R122 to
R124, R130, R307). -/
namespace Sys2Proof.Machine

/-! ## Flues and clusters (R35 to R38, R126) -/

/-- A die whose Flue is in service: the Ember die at stage 2, the dies in full compute from stage 3 on. -/
def State.dieUp (s : State) (d : Nat) : Bool :=
  if s.pkg.stage = 2 then d == s.pkg.emberDie else 3 ≤ s.pkg.stage && s.pkg.fullDie.getLsbD d
/-- A cluster in service whose die is (R37, R299). -/
def State.clusterUp (s : State) (c : Nat) : Bool := c < 32 && s.pkg.clusters.getLsbD c && s.dieUp (c / 8)
/-- The Flue that serves a launch queue (R126); 4 when none is in service. -/
def State.flueDie (s : State) (handle : Nat) : Nat :=
  if s.dieUp (handle % 4) then handle % 4 else ((upTo 4).find? s.dieUp).getD 4
/-- The Flue that serves a launch (R126): that of the die which accepted it, or, once that die has been withdrawn, the
lowest-numbered one in service. -/
def State.serving (s : State) (l : Launch) : Nat := if s.dieUp l.die then l.die else ((upTo 4).find? s.dieUp).getD 4
/-- Cores in service among a list, and those that a placement may use: no in-field test is under way on their cluster (R151). -/
def State.coresUp (s : State) (cores : List Nat) : List Nat := cores.filter (fun c => s.clusterUp (c / 8))
def State.coresFree (s : State) (cores : List Nat) : List Nat := (s.coresUp cores).filter (fun c => !s.pkg.tests.contains (c / 8))

/-! ## The record (R114, R116) -/

/-- The fields of a launch record (R114, R121). -/
def recordOf (b : List Byte) : LRec :=
  let f := fun (o n : Nat) => fieldLE b o n
  let nlev := f 16 1
  let m := f 59 1
  { entry := BitVec.ofNat 56 (f 0 7), handler := BitVec.ofNat 56 (f 8 7), nlev := nlev, gwidth := f 17 1,
    domains := (upTo (nlev - 2)).map (fun j => f 18 2 / 4 ^ j % 4), exts := (upTo (nlev - 2)).map (fun j => f (20 + 2 * j) 2),
    wlist := BitVec.ofNat 56 (f 32 7), wcount := f 39 1, task := BitVec.ofNat 56 (f 40 7), tcount := f 47 1, scratch := f 48 3,
    opbuf := f 52 2, compq := f 54 2, vgran := f 56 1, ggran := f 57 1, tregs := f 58 1, accs := m % 16, pclass := m.testBit 4,
    pinclass := m.testBit 5, replay := (f 60 1).testBit 0, prio := f 61 1 % 8, auth := f 62 1 % 4, authPart := f 62 1 / 4,
    wins := (upTo 8).map (fun k =>
      let w := f (64 + 8 * k) 8
      if w.testBit 63 then some (w / 2 ^ 56 % 64, BitVec.ofNat 56 w) else none) }

/-- Check 2 of R116: reserved bits, levels, domains, extents and counts within R114, R24 and R121. -/
def recordFits (b : List Byte) (r : LRec) : Bool :=
  let f := fun (o n : Nat) => fieldLE b o n
  let n := r.nlev - 2
  f 7 1 == 0 && f 15 1 == 0 && f 51 1 == 0 && f 63 1 == 0 && f 59 1 / 64 == 0 && f 60 1 / 2 == 0 && f 61 1 / 8 == 0 &&
  3 ≤ r.nlev && r.nlev ≤ 8 && [8, 16, 32, 64].contains r.gwidth && f 18 2 / 4 ^ n == 0 &&
  r.exts.all (fun e => 1 ≤ e) && (upTo 6).all (fun j => j < n || f (20 + 2 * j) 2 == 0) &&
  (upTo (n - 1)).all (fun j => r.domains.getD j 0 ≤ r.domains.getD (j + 1) 0) && r.domains.head? == some 0 &&
  r.gwidth * r.wgGroups ≤ 4096 && r.tcount ≤ 64 && (r.tcount != 0 || r.task == 0) && r.scratch % 256 == 0 &&
  r.scratch + 4096 * r.wgGroups ≤ 8388608 && r.opbuf ≤ 2048 && r.vgran ≤ 32 && r.ggran ≤ 16 && r.tregs ≤ 16 && r.accs ≤ 8 &&
  (upTo 8).all (fun k =>
    let w := f (64 + 8 * k) 8
    if w.testBit 63 then !w.testBit 62 && w / 2 ^ 56 % 64 ≤ 32 && w % 4 == 0 else w == 0)

/-- Workgroups that an empty core takes (R135). That check 3 of R116 measures scratchpad against the whole slice of the core, and not
against the partition's SCRCAP, is the model's choice (log 81). -/
def LRec.perCore (r : LRec) : Nat :=
  let n := r.wgGroups
  let cap := fun (limit demand : Nat) => if demand = 0 then 4096 else limit / demand
  let ranges := 64 / r.gwidth * min 64 (cap 8192 (8 * r.vgran))
  [ranges / n, cap 262144 (n * (32 * r.ggran + 32 * r.tregs + (if r.pinclass then 64 else 0))), cap 8 (n * r.accs),
   cap 2048 (n * r.opbuf), cap 8388608 r.allocBytes].foldl min 4096
/-- The domain of the highest co-resident level (R119). -/
def LRec.topDomain (r : LRec) : Nat := r.domains.getD (r.topResident - 2) 0
/-- Whether some level is bound to device (R126). -/
def LRec.deviceWide (r : LRec) : Bool := r.domains.contains 3
/-- The cores of the instance of a domain that holds a core. -/
def domainCores (domain core : Nat) : List Nat :=
  match domain with
  | 0 => [core]
  | 1 => (upTo 8).map (fun i => core / 8 * 8 + i)
  | _ => (upTo 64).map (fun i => core / 64 * 64 + i)
/-- Workgroups of a co-resident instance, and how many of them, in ascending order, lie on one cluster together: those of an instance of
the highest level bound to cluster, or single ones in an instance of a die without such a level (R119). -/
def LRec.instWgs (r : LRec) : Nat := r.instGroupCount / r.wgGroups
def LRec.chunk (r : LRec) : Nat :=
  if r.topDomain = 2 then prod (((r.domains.zip r.exts).filter (fun x => x.1 == 1)).map (·.2)) else r.instWgs
/-- Check 3 of R116: a workgroup fits an empty core, and an instance, with the instances of levels inside it, an empty instance of its
domain among the clusters in service. -/
def State.recordPlaces (s : State) (r : LRec) : Bool :=
  1 ≤ r.perCore &&
  (upTo 256).any (fun c => s.clusterUp (c / 8) &&
    (let cores := s.coresUp (domainCores r.topDomain c)
     let clusters := (cores.map (· / 8)).eraseDups
     r.instWgs ≤ r.chunk * ((clusters.map (fun k => r.perCore * cores.countP (· / 8 == k) / r.chunk)).sum)))

/-- The check of a page that a parameter window reads, by attributes (R116). -/
def PageEnt.reads (e : PageEnt) (space : Nat) : Bool := e.owner == space && e.rd && e.kind != 3 && e.kind != 4
/-- Pages of a window. -/
def winPages (w : Nat × Addr) : List Nat :=
  if w.1 = 0 then [] else [w.2.toNat, (w.2.toNat + 4 * w.1 - 1) % vaMod].map (· / frameBytes) |>.eraseDups
/-- What reading the windows of a record finds: refused, pages that are not resident, or nothing in the way (R116, R121). -/
def State.windowsFind (s : State) (space : Nat) (r : LRec) : Except Unit (List Nat) :=
  (r.wins.flatMap (fun w => match w with | some w => winPages w | none => [])).foldl (fun a p =>
    match a with
    | .error e => .error e
    | .ok l => match s.xlate space none (p * frameBytes) with
      | .leaf _ e => if e.reads space then .ok l else .error ()
      | .absent e => if e.state ≠ 4 && e.reads space then .ok (l ++ [p]) else .error ()
      | _ => .error ()) (.ok [])

/-- Whether a list lies in scratchpad or on fixed frames of a space (R116, R100). -/
def State.fixedRange (s : State) (space va n : Nat) : Bool :=
  n = 0 || (upTo (n / frameBytes + 2)).all (fun i =>
    let a := min (va + i * frameBytes) (va + n - 1)
    match s.xlate space none a with
    | .leaf _ e => e.owner == space && (e.kind == 1 || (e.kind == 0 && e.fix))
    | _ => false)
/-- The tile references of a record (R128), and its writable ranges (R134), as the lists in memory give them. -/
def State.tileRefs (s : State) (space : Nat) (r : LRec) : Option (List TileRef) :=
  ((upTo r.tcount).map (fun i => leNat (s.loadVa space (r.task.toNat + 8 * i) 8))).foldl (fun (a : Option (List TileRef)) w =>
    let va := w % vaMod
    let size := 2 ^ (w / 2 ^ 56 % 16 + 8)
    a.bind (fun l =>
      if w / 2 ^ 56 % 16 ≤ 8 && w / 2 ^ 60 % 8 == 0 && va % size == 0 && isFlat va then
        match s.xlate space none va with
        | .leaf pa e => if e.owner = space then some (l ++ [{ pa := pa, size := size, result := w.testBit 63 }]) else none
        | _ => none
      else none)) (some [])
def State.rangeList (s : State) (space : Nat) (r : LRec) : Option (List (Nat × Nat)) :=
  ((upTo r.wcount).map (fun i => (leNat (s.loadVa space (r.wlist.toNat + 16 * i) 8), leNat (s.loadVa space (r.wlist.toNat + 16 * i + 8) 8)))).foldl
    (fun (a : Option (List (Nat × Nat))) x =>
      a.bind (fun l => if x.1 < vaMod && x.1 % frameBytes == 0 && x.2 % frameBytes == 0 && x.2 != 0 then some (l ++ [x]) else none)) (some [])
/-- The first check that fails, by its reason code, or 0 (R116). -/
def State.recordReason (s : State) (space : Nat) (b : List Byte) (r : LRec) : Nat :=
  if fieldLE b 62 1 ≠ (if space = 64 then 2 else 1 + 4 * space) then 1
  else if !recordFits b r then 2
  else if !s.recordPlaces r then 3
  else if (match s.windowsFind space r with | .error _ => true | .ok _ => false) then 4
  else if !(s.fixedRange space r.task.toNat (8 * r.tcount) && s.fixedRange space r.wlist.toNat (16 * r.wcount) &&
      (s.tileRefs space r).isSome && (s.rangeList space r).isSome) then 5
  else 0

/-! ## Acceptance (R116, R121, R123) -/

/-- A launch becomes eligible: its wait counts from now (R132). -/
def State.makeEligible (s : State) (id : Nat) : State :=
  s.updLaunch id (fun l => { l with phase := .eligible, since := (s.ref l.die).toNat })
/-- A rejected launch completes with its reason, and the operator gets a notice of class 2 (R116). -/
def State.rejectLaunch (s : State) (id reason : Nat) : State :=
  let l := s.launch id
  ((s.launchNotice l l.die 2).bump 7 l.space 1 1).complete id 2 reason
/-- The words of the bound windows of a record: the number of each in the parameter store, and its address. -/
def LRec.winWords (r : LRec) : List (Nat × Nat) :=
  r.wins.zipIdx.flatMap (fun e => match e.1 with
    | some (n, a) => (upTo n).map (fun i => (32 * e.2 + i, (a.toNat + 4 * i) % vaMod))
    | none => [])
/-- The physical addresses of those words. -/
def State.winPas (s : State) (l : Launch) : List Nat :=
  l.record.winWords.filterMap (fun w => match s.xlate l.space none w.2 with | .leaf pa _ => some pa | _ => none)
/-- Those in host memory whose responses have not come (R43). -/
def State.winHost (s : State) (l : Launch) : List Nat :=
  if l.phase = .reading then (s.winPas l).filter (fun pa => inRegion 2 pa && !l.got.contains (pa / 256)) else []
/-- Reads the windows of an accepted launch (R121): it is rejected, waits for pages that it requests or for host memory (R43), or has its
words; then a child is held until its parent has ended, and any other launch is eligible (R123). A word that cannot be read is an
error that the launch consumes (R295, log 79). -/
def State.readParams (s : State) (id : Nat) : State :=
  match s.launches.find id with
  | none => s
  | some l =>
    if l.phase ≠ .reading then s
    else match s.windowsFind l.space l.record with
    | .error _ => s.rejectLaunch id 4
    | .ok (p :: ps) => (p :: ps).foldl (fun s p => s.requestPage l.space p 0 1 l.die 0xFFFF l.seq 0) s
    | .ok [] =>
      if s.winHost l ≠ [] then s
      else if (s.winPas l).any (fun pa => s.poisoned pa 4) then s.consume id l.die
      else
      let params : Tab W32 := l.record.winWords.foldl (fun (t : Tab W32) w => t.put w.1 (BitVec.ofNat 32 (leNat (s.loadVa l.space w.2 4)))) []
      let s := (s.winPas l).foldl State.touch s
      let s := (s.updLaunch id (fun l => { l with params := params, got := [] })).bump 7 l.space 0 1
      match l.parent with
      | some p => if (s.launches.find p).isSome && (s.launch p).phase != .ended then s.updLaunch id (fun l => { l with phase := .held p })
        else s.makeEligible id
      | none => s.makeEligible id
/-- Launches whose windows wait for no pending page any longer read them again (R121). -/
def State.readLate (s : State) : State :=
  (s.launches.filter (fun e => e.2.phase == .reading && (match s.windowsFind e.2.space e.2.record with
    | .ok ps => ps.all (fun p => !s.pagePending e.2.space p)
    | .error _ => true))).foldl (fun s e => s.readParams e.1) s
/-- LAUNCH_ACCEPT (R116, R125): the Flue of the queue removes the oldest record, unless its hold list is full; the record of a parent
that discards its children is accepted and discarded (R124). -/
def execLaunchAccept (space handle : Nat) (s : State) : Host.Outcome State Fault Refusal :=
  match s.queue space handle with
  | none => .next s
  | some q =>
    let d := s.flueDie handle
    let children := s.launches.countP (fun e => s.serving e.2 == d && e.2.parent.isSome &&
      (match e.2.phase with | .held _ | .reading => true | _ => false))
    if q.kind ≠ 1 ∨ q.count = 0 ∨ d = 4 ∨ 4096 ≤ children ∨ (s.part space).sealed ∨ (s.part space).frozen ∨
        !s.queueSound space q ∨ !s.mayPop space q then .next s
    else
      let b := s.headEntry space q
      let r := recordOf b
      let p := s.part space
      let reason := s.recordReason space b r
      let id := s.stamp
      let l : Launch :=
        { space := space, seq := p.launchSeq, handle := handle, die := d, record := r, phase := .reading,
          parent := q.parents.find q.head, tiles := (s.tileRefs space r).getD [], ranges := (s.rangeList space r).getD [] }
      let s := { (s.setQueue space handle { q with parents := q.parents.erase q.head }).pop space handle with stamp := s.stamp + 1 }
      let s := s.updPart space (fun p => { p with launchSeq := (p.launchSeq + 1) % 2 ^ 48 })
      let s := { s with launches := s.launches.put id l }
      .next (if reason ≠ 0 then s.rejectLaunch id reason
        else if l.parent = some discardedParent then s.complete id 3 0
        else s.readParams id)

/-! ## Occupancy (R135) -/

/-- Groups on a core. -/
def State.coreGroups (s : State) (core : Nat) : List (Nat × Group) := s.groups.filter (fun e => coreOf e.1 == core)
def State.recOf (s : State) (g : Group) : LRec := (s.launch g.launch).record
/-- A sum over the groups of a core that still hold a class on it. -/
def State.useOf (s : State) (core cls : Nat) (f : Group → Nat) : Nat :=
  (s.coreGroups core).foldl (fun n e => if e.2.spilt.getLsbD cls then n else n + f e.2) 0
/-- Accumulators that the groups of a core still hold on it (R135, R147). -/
def State.accUse (s : State) (core : Nat) : Nat :=
  (s.coreGroups core).foldl (fun n e => n + (upTo (s.recOf e.2).accs).countP (fun k => !e.2.accSpilt.getLsbD k)) 0
/-- Whether a group of a record fits a lane range of a core (R135, R136). -/
def State.rangeFits (s : State) (core base : Nat) (r : LRec) : Bool :=
  base % r.gwidth == 0 && base + r.gwidth ≤ 64 &&
  (upTo r.gwidth).all (fun i =>
    let on := fun (g : Group) (n : Nat) => if g.laneBase ≤ base + i && base + i < g.laneBase + g.width then n else 0
    s.useOf core 1 (fun g => on g 1) < 64 && s.useOf core 0 (fun g => on g (s.recOf g).nv) + r.nv ≤ 8192)
/-- Group state and accumulators (R135). -/
def State.stateFits (s : State) (core : Nat) (r : LRec) : Bool :=
  s.useOf core 2 (fun g => 32 * (s.recOf g).ggran) + s.useOf core 3 (fun g => 32 * (s.recOf g).tregs) +
    s.useOf core 4 (fun g => if (s.recOf g).pinclass then 64 else 0) + 32 * r.ggran + 32 * r.tregs + (if r.pinclass then 64 else 0) ≤ 262144 &&
  s.accUse core + r.accs ≤ 8
/-- The first contiguous place for a group's operand-buffer range. -/
def State.opPlace (s : State) (core n : Nat) : Option Nat :=
  let taken := (s.coreGroups core).filterMap (fun e =>
    if e.2.spilt.getLsbD 6 || (s.recOf e.2).opbuf = 0 then none else some (e.2.opBase, e.2.opBase + 1024 * (s.recOf e.2).opbuf))
  ((0 :: taken.map (·.2)).filter (fun a => a + n ≤ 2097152 && taken.all (fun r => r.2 ≤ a || a + n ≤ r.1))).foldl
    (fun (m : Option Nat) a => match m with | some b => some (min a b) | none => some a) none

/-! ## Placement (R58, R120, R136, R147, R168, R176) -/

/-- LEVEL1 to LEVEL7 of a linear group index (R117, R120). -/
def levelsOf (exts : List Nat) : Nat → Nat → List Nat
  | 0, _ => []
  | n + 1, i => match exts with
    | e :: rest => i % e :: levelsOf rest n (i / e)
    | [] => 0 :: levelsOf [] n 0
/-- Takes the frames of a group's save area, fixed frames of its space (R147, R168); none in Ember mode (log 24). -/
def State.takeSave (s : State) (gid : Nat) : Option State :=
  if s.pkg.stage < 3 then some s
  else
    let g := s.group gid
    let n := s.saveFrames gid
    if !s.mayTake g.space n true then none
    else (s.freeRun n 0).map (fun f =>
      ((s.takeRun g.space f n true).gotFrames g.space).updGroup gid (fun g => { g with saveFrame := f, saveCount := n }))
/-- A placement that finds no frames for a save area asks for them (R92, R147). -/
def State.wantSaves (s : State) (l : Launch) : State :=
  let n := saveFramesOf (l.record.sections l.record.gwidth true)
  if 3 ≤ s.pkg.stage && s.mayTake l.space n true && (s.freeRun n 0).isNone then s.wantFrames l.space n 0 else s
/-- Places one group on a core with its threads, in the lane range `base` if it fits there, else in the first that fits. -/
def State.placeGroup (s : State) (id core base gidx index : Nat) (inst : Nat) (scr : Addr) : Option State :=
  let l := s.launch id
  let r := l.record
  let slot := (upTo 512).find? (fun n => (s.groups.find (core * 512 + n)).isNone)
  let lane := (base :: (upTo (64 / r.gwidth)).map (· * r.gwidth)).find? (fun b => s.rangeFits core b r)
  match slot, lane, s.opPlace core (1024 * r.opbuf) with
  | some n, some b, some o =>
    if !s.stateFits core r then none
    else
      let gid := core * 512 + n
      let g : Group :=
        { space := l.space, launch := id, inst := inst, levels := levelsOf r.exts 7 index, gidx := gidx, width := r.gwidth,
          laneBase := b, scrBase := scr, opBase := o }
      let s := { s with groups := s.groups.put gid g }
      let s := { s with threads := (upTo r.gwidth).foldl (fun (t : Tab Thread) i =>
                   t.put (gid * 64 + i) { pc := r.entry, entry := true, since := s.stamp }) s.threads,
                        stamp := s.stamp + 1 }
      s.takeSave gid
  | _, _, _ => none
/-- Places workgroup `w` of a co-resident instance on a core: its allocation, zeroed, and its groups. -/
def State.placeWg (s : State) (id core base inst w : Nat) : Option State :=
  let l := s.launch id
  let r := l.record
  let n := r.wgGroups
  match if s.stateFits core r then s.scrPlace core l.space r.allocBytes else none with
  | none => none
  | some pa =>
    let first := (s.coreGroups core).all (fun e => e.2.space != l.space)
    let s := (s.takeScrRange core l.space pa r.allocBytes).wipe pa (pa + r.allocBytes)
    let s := if first then { s with slices := s.slices.put (l.space * 256 + core) { start := (s.ref (dieOf core)).toNat } } else s
    (upTo n).foldl (fun (a : Option State) g => a.bind (fun s =>
      s.placeGroup id core base g (g + n * w + r.instGroupCount * inst) inst (BitVec.ofNat 56 (flatBase + (pa - scratchBase))))) (some s)
/-- Places `n` workgroups from number `w` on, each on the first core of a list that takes it. -/
def State.placeWgs (s : State) (id base inst w n : Nat) (cores : List Nat) : Option State :=
  (upTo n).foldl (fun (a : Option State) i => a.bind (fun s =>
    cores.findSome? (fun c => s.placeWg id c base inst (w + i)))) (some s)
/-- Places a co-resident instance on cores of a list, what belongs on one cluster on the first cluster that takes it (R119). -/
def State.placeInst (s : State) (id base inst : Nat) (cores : List Nat) : Option State :=
  let r := (s.launch id).record
  (upTo (r.instWgs / r.chunk)).foldl (fun (a : Option State) i => a.bind (fun s =>
    ((cores.map (· / 8)).eraseDups).findSome? (fun k =>
      s.placeWgs id base inst (r.chunk * i) r.chunk (cores.filter (· / 8 == k))))) (some s)
/-- The cores that an instance may use, beginning with a core: those of one instance of its domain after another. -/
def State.domainsFrom (s : State) (r : LRec) (core : Nat) : List (List Nat) :=
  let size := match r.topDomain with | 0 => 1 | 1 => 8 | _ => 64
  let d := core / 64 * 64
  let k := core % 64 / size
  (upTo (64 / size)).map (fun i =>
    let b := d + (k + i) % (64 / size) * size
    let off := if i = 0 then core % size else 0
    s.coresFree ((upTo size).map (fun j => b + (off + j) % size)))
/-- An instance placed without any claim: in the first instance of its domain, from a core on, that takes it. -/
def State.placeFrom (s : State) (id base inst core : Nat) : Option State :=
  (s.domainsFrom (s.launch id).record core).findSome? (fun cs => s.placeInst id base inst cs)

/-! ## Claims (R147) -/

/-- A unit of room: a group and its unit (`State.units`). -/
abbrev RoomUnit := Nat × Nat
/-- The state as if units had been claimed: for finding out what fits. -/
def State.asClaimed (s : State) (us : List RoomUnit) : State :=
  us.foldl (fun s u =>
    let s := s.updGroup u.1 (fun g => g.spill u.2)
    if u.2 = 7 then s.freeScratch (s.group u.1).space else s) s
/-- The units of some groups that are on their cores; a group without a save area has none to give (R147). -/
def State.unitsOf (s : State) (gs : List (Nat × Group)) : List RoomUnit :=
  (gs.filter (fun e => e.2.saveCount != 0)).flatMap (fun e => ((s.units e.1).filter (fun u => !e.2.isSpilt u)).map (fun u => (e.1, u)))
/-- Units that halted groups of a partition hold on some cores. -/
def State.roomUnits (s : State) (space : Nat) (cores : List Nat) : List RoomUnit :=
  s.unitsOf (s.groups.filter (fun e => e.2.halted && e.2.space == space && cores.contains (coreOf e.1)))
/-- Partitions with halted groups on some cores, the one halted longest first. -/
def State.haltedSpaces (s : State) (cores : List Nat) : List Nat :=
  let age := fun (p : Nat) => (s.groups.filter (fun e => e.2.halted && e.2.space == p && cores.contains (coreOf e.1))).foldl
    (fun m e => min m e.2.haltAt) s.stamp
  let rec insert (p : Nat) : List Nat → List Nat
    | [] => [p]
    | q :: l => if age p < age q then p :: q :: l else q :: insert p l
  (((s.groups.filter (fun e => e.2.halted && cores.contains (coreOf e.1))).map (·.2.space)).eraseDups).foldl (fun l p => insert p l) []
/-- Sublists of length `k`, in order. -/
def sublists {α : Type} : Nat → List α → List (List α)
  | 0, _ => [[]]
  | _ + 1, [] => []
  | k + 1, x :: l => (sublists k l).map (x :: ·) ++ sublists (k + 1) l
/-- The fewest units of a list with which a test holds. -/
def fewest {α : Type} (us : List α) (ok : List α → Bool) : Option (List α) :=
  (upTo (us.length + 1)).findSome? (fun k => (sublists k us).find? ok)
/-- The units that a placement claims (R147): the fewest of the partition halted longest; only if all of its units do not make
it fit, those that add room, and then the next partition's. `fits` tells whether a placement fits a state, `useful` whether units of a
class, by its SPILT bit, add room to it. -/
def State.claims (s : State) (cores : List Nat) (useful : Nat → Bool) (fits : State → Bool) : List Nat → List RoomUnit → Option (List RoomUnit)
  | [], got => if fits (s.asClaimed got) then some got else none
  | p :: rest, got =>
    let us := s.roomUnits p cores
    if fits (s.asClaimed (got ++ us)) then (fewest us (fun x => fits (s.asClaimed (got ++ x)))).map (got ++ ·)
    else State.claims s cores useful fits rest (got ++ us.filter (fun u => useful (unitBit u.2)))
/-- Classes that add room to a placement of a record. -/
def LRec.useful (r : LRec) (c : Nat) : Bool :=
  match c with
  | 0 => r.vgran != 0
  | 1 => true
  | 2 | 3 | 4 => r.ggran != 0 || r.tregs != 0 || r.pinclass
  | 5 => r.accs != 0
  | 6 => r.opbuf != 0
  | _ => true
/-- Claims units one after another; `none` while something in flight can still write one of them (R147). -/
def State.claimAll (s : State) (us : List RoomUnit) : Option State :=
  if us.any (fun u => s.unitBusy u.1 u.2) then none else some (us.foldl (fun s u => s.claimUnit u.1 u.2) s)
/-- Places an instance, claiming room of halted groups when it does not fit without (R135, R147). -/
def State.placeOrClaim (s : State) (id base inst core : Nat) : Option State :=
  match s.placeFrom id base inst core with
  | some s' => some s'
  | none =>
    let r := (s.launch id).record
    let cores := s.coresFree (domainCores r.topDomain core)
    let fits := fun (s : State) => (s.placeInst id base inst cores).isSome
    (s.claims cores r.useful fits (s.haltedSpaces cores) []).bind (fun us =>
      (s.claimAll us).bind (fun s => s.placeInst id base inst cores))

/-! ## Halted groups and their room (R147, R149) -/

/-- Whether what the groups of a core hold lies within the limits of R135. -/
def State.coreFits (s : State) (core : Nat) : Bool :=
  let gs := s.coreGroups core
  (upTo 64).all (fun i =>
    let on := fun (g : Group) (n : Nat) => if g.laneBase ≤ i && i < g.laneBase + g.width then n else 0
    s.useOf core 1 (fun g => on g 1) ≤ 64 && s.useOf core 0 (fun g => on g (s.recOf g).nv) ≤ 8192) &&
  s.useOf core 2 (fun g => 32 * (s.recOf g).ggran) + s.useOf core 3 (fun g => 32 * (s.recOf g).tregs) +
    s.useOf core 4 (fun g => if (s.recOf g).pinclass then 64 else 0) ≤ 262144 &&
  s.accUse core ≤ 8 &&
  gs.all (fun e => gs.all (fun x => e.1 == x.1 || e.2.spilt.getLsbD 6 || x.2.spilt.getLsbD 6 ||
    e.2.opBase + 1024 * (s.recOf e.2).opbuf ≤ x.2.opBase || x.2.opBase + 1024 * (s.recOf x.2).opbuf ≤ e.2.opBase))
/-- Whether the scratchpad of a group's workgroup can be taken back at its own place. -/
def State.scrBack (s : State) (gid : Nat) : Bool :=
  let g := s.group gid
  let r := s.allocRange gid
  !s.scrSpilt gid ||
  ((upTo 128).all (fun i =>
    let f := sliceFrame (coreOf gid) + i
    frameAddr f + frameBytes ≤ r.1 || r.2 ≤ frameAddr f ||
      (((s.frame f).owner == g.space || (s.frame f).owner == 127) && (s.grants.find f).isNone)) &&
  (s.coreGroups (coreOf gid)).all (fun e => s.scrSpilt e.1 || (s.allocRange e.1).2 ≤ r.1 || r.2 ≤ (s.allocRange e.1).1))
/-- The free scratchpad frames that the return of the groups of an instance takes (R175). -/
def State.backFrames (s : State) (gs : List Nat) : List Nat :=
  ((gs.filter s.scrSpilt).flatMap (fun g => let r := s.allocRange g; s.scrNew (coreOf g) r.1 (r.2 - r.1))).eraseDups
/-- Whether the groups of an instance could hold every unit again (R149), within the scratchpad of their space (R175). -/
def State.backFits (s : State) (gs : List Nat) : Bool :=
  let new := (s.backFrames gs).length
  let space := match gs with | g :: _ => (s.group g).space | [] => 0
  (new == 0 || decide (s.scrHeld space + new ≤ scrCap s space)) &&
  let s' := gs.foldl (fun s g => s.updGroup g (fun x => { x with spilt := 0, accSpilt := 0 })) s
  gs.all (fun g => s'.coreFits (coreOf g) && s.scrBack g)
/-- The units that an instance's return claims from other partitions, if it needs any. -/
def State.backClaims (s : State) (space : Nat) (gs : List Nat) : Option (List RoomUnit) :=
  let cores := (gs.map coreOf).eraseDups
  if s.backFits gs then some []
  else
    let useful := fun (c : Nat) => gs.any (fun g => (s.group g).spilt.getLsbD c ||
      ((c == 2 || c == 3 || c == 4) && (s.group g).spilt.toNat / 4 % 8 != 0))
    s.claims cores useful (fun s => s.backFits gs) ((s.haltedSpaces cores).filter (· != space)) []
/-- Whether a halted instance is eligible to return (R149): its space is not sealed or frozen, and none of its groups is stopped or on a
cluster that is tested or out of service. -/
def State.eligibleBack (s : State) (launch inst : Nat) : Bool :=
  let space := (s.launch launch).space
  !(s.part space).sealed && !(s.part space).frozen &&
  (s.instGroups launch inst).all (fun g =>
    !(s.group g).stopped && !s.pkg.tests.contains (coreOf g / 8) && s.clusterUp (coreOf g / 8))
/-- Whether it may return: its units fit, with what it may claim. -/
def State.mayReturn (s : State) (launch inst : Nat) : Bool :=
  s.eligibleBack launch inst && (s.backClaims (s.launch launch).space (s.instGroups launch inst)).isSome
/-- The co-resident instance of a partition on a core that has been halted longest and is not stopped. -/
def State.nextHalted (s : State) (space core : Nat) : Option (Nat × Nat) :=
  (((s.coreGroups core).filter (fun e => e.2.space == space && e.2.halted && !e.2.stopped)).foldl
    (fun (m : Option (Nat × Group)) e => match m with
      | some x => if e.2.haltAt < x.2.haltAt then some e else some x
      | none => some e) none).map (fun e => (e.2.launch, e.2.inst))
/-! ## Dispatch (R129, R132, R133) -/

/-- The effective class of a launch (R132). -/
def State.effClass (s : State) (l : Launch) : Nat :=
  min 7 (min l.record.prio (s.part l.space).maxcls + ((s.ref l.die).toNat - l.since) / 2 ^ 20)
/-- Whether every unit of a tile is full, or none is (R127). -/
def State.tileFull (s : State) (t : TileRef) : Bool := (upTo (t.size / 256)).all (fun i => s.fullUnits.contains (t.pa / 256 + i))
def State.tileEmpty (s : State) (t : TileRef) : Bool := (upTo (t.size / 256)).all (fun i => !s.fullUnits.contains (t.pa / 256 + i))
/-- A task's dependences (R129): inputs full, results empty and unclaimed. A result tile that overlaps a claimed one without being the
same tile counts as claimed, which is the model's choice (log 81). -/
def State.taskReady (s : State) (id : Nat) (l : Launch) : Bool :=
  l.claimed || l.tiles.all (fun t =>
    if t.result then s.tileEmpty t && s.launches.all (fun e => e.1 == id || !e.2.claimed ||
      e.2.tiles.all (fun u => !u.result || u.pa + u.size ≤ t.pa || t.pa + t.size ≤ u.pa))
    else s.tileFull t)
/-- Whether a Flue may place a launch's next instance as far as its own state goes: eligible or part-way, its space not sealed
and with a fault queue (R78), its task ready, and room among 16 live generations (R133). -/
def State.mayDispatch (s : State) (die id : Nat) (l : Launch) : Bool :=
  (l.phase == .eligible || l.phase == .running) && l.next < l.record.instances && (s.serving l == die || l.record.deviceWide) &&
  !(s.part l.space).sealed && !(s.part l.space).frozen && (s.kindQueue l.space 3).isSome && s.taskReady id l &&
  (!l.record.replay || l.gen.isSome || l.phase == .running || (s.part l.space).liveGens < 16)
/-- A launch is kept back by a blocking one of the same or a higher class on its die (R132). That the cores which a blocking launch could
use are all those of its Flue's die, or of every die for a device-wide launch, is the model's choice (log 81). -/
def State.keptBack (s : State) (die id : Nat) (l : Launch) : Bool :=
  s.launches.any (fun e => e.1 != id && e.2.blocking && (s.serving e.2 == die || e.2.record.deviceWide) && s.effClass l ≤ s.effClass e.2)
/-- First dispatch of a launch: a replayable one opens its launch generation (R133, R187), a task takes its claims (R129), and
signature checking begins (R307). -/
def State.begin (s : State) (id : Nat) : State :=
  let l := s.launch id
  let p := s.part l.space
  let check := p.trctl.getLsbD 62 && p.trctl.toNat % 65536 == l.handle && l.record.replay
  let s := if l.record.replay && l.gen.isNone then
      let g : Gen := { num := p.freeNum, state := 5, launch := id, shared := l.rangePages }
      (s.setPart l.space { p with gens := p.gens.put p.nextSerial g, nextSerial := p.nextSerial + 1 }).updLaunch id (fun l =>
        { l with gen := some p.nextSerial, replayable := true })
    else s
  s.updLaunch id (fun l => { l with phase := .running, claimed := l.tiles != [],
                                    sigRun := if l.sigRun = 0 && check && l.attempts = 0 then 1 else l.sigRun })
/-- Places instances of a launch while the deficit of its space covers them and they fit (R132); `n` bounds the loop. -/
def State.placeWhile : Nat → State → Nat → Nat → Nat → Nat → State
  | 0, s, _, _, _, _ => s
  | n + 1, s, die, id, core, base =>
    let l := s.launch id
    let f := s.flues.getD die {}
    let threads := l.record.instGroupCount * l.record.gwidth
    let d := f.deficit.getD l.space 0
    if l.record.instances ≤ l.next || d < threads then s
    else match (s.begin id).placeOrClaim id base l.next core with
      | some s' =>
        let s1 := s'.updLaunch id (fun l => { l with next := l.next + 1, unfit := none, blocking := false })
        State.placeWhile n { s1 with flues := s1.flues.put die { f with deficit := f.deficit.put l.space (d - threads) } } die id core base
      | none => (s.updLaunch id (fun l => { l with unfit := some (l.unfit.getD (s.ref die).toNat) })).wantSaves l

/-- What a Flue may serve, as classes and spaces: launches, and halted instances that may return, whose class is their launch's (R132,
R149). -/
def State.flueLaunches (s : State) (die : Nat) : Tab Launch := s.launches.filter (fun e => s.mayDispatch die e.1 e.2 && !s.keptBack die e.1 e.2)
def State.flueReturns (s : State) (die : Nat) : List (Nat × Nat) :=
  ((((s.groups.filter (fun e => dieOf (coreOf e.1) == die && e.2.halted && !e.2.stopped)).map (fun e => (e.2.space, coreOf e.1))).eraseDups).filterMap
    (fun x => s.nextHalted x.1 x.2)).eraseDups.filter (fun x => s.mayReturn x.1 x.2)
def State.flueWork (s : State) (die : Nat) : List (Nat × Nat) :=
  (s.flueLaunches die).map (fun e => (s.effClass e.2, e.2.space)) ++
  (s.flueReturns die).map (fun x => (s.effClass (s.launch x.1), (s.launch x.1).space))
/-- The highest effective class with something to serve. -/
def State.flueClass (s : State) (die : Nat) : Nat := (s.flueWork die).foldl (fun m x => max m x.1) 0
/-- The partition that a Flue visits (R132) and its deficit there: the visit under way while the partition has work left in the highest
class, else the next in the ring that has, with WEIGHT × 4096 added. -/
def State.flueVisit (s : State) (die : Nat) : Option (Nat × Nat) :=
  let f := s.flues.getD die {}
  let has := fun (p : Nat) => (s.flueWork die).contains (s.flueClass die, p)
  if f.visit && has f.ring then some (f.ring, f.deficit.getD f.ring 0)
  else ((upTo 65).map (fun i => (f.ring + i + bit f.visit) % 65) |>.find? has).map (fun p =>
    (p, f.deficit.getD p 0 + (s.part p).weight * 4096))
/-- Records a visit: where it is, and what deficit is left. -/
def State.setVisit (s : State) (die p d : Nat) : State :=
  { s with flues := s.flues.put die { ring := p, visit := true, deficit := (s.flues.getD die {}).deficit.put p d } }
/-- The launch of a partition that a visit serves: the one with the lowest sequence number in the highest class. -/
def State.flueLaunch (s : State) (die p : Nat) : Option (Nat × Launch) :=
  ((s.flueLaunches die).filter (fun e => e.2.space == p && s.effClass e.2 == s.flueClass die)).foldl (fun (m : Option (Nat × Launch)) e =>
    match m with
    | some x => if e.2.seq < x.2.seq then some e else some x
    | none => some e) none
/-- Threads of an instance that have not exited. -/
def State.instSize (s : State) (launch inst : Nat) : Nat := (s.instGroups launch inst).foldl (fun n g => n + (s.live g).length) 0
/-- Ends a visit: the ring moves on, and a deficit with no work left in the class is 0. -/
def State.endVisit (s : State) (die p c : Nat) : State :=
  { s with flues := s.flues.upd die (fun f =>
      { ring := (p + 1) % 65, visit := false, deficit := if (s.flueWork die).contains (c, p) then f.deficit else f.deficit.put p 0 }) }
/-- DISPATCH (R132): a visit of a Flue to the next partition of its ring that has work of the highest effective class; `core` and `lane`
are where placement begins (log 10). Halted instances that may return come first: while the deficit covers one, the visit is
GROUP_RESUME's (R149), and when it covers none, nothing is placed. -/
def execDispatch (die core lane : Nat) (s : State) : Host.Outcome State Fault Refusal :=
  if !s.dieUp die ∨ 64 ≤ core then .next s
  else match s.flueVisit die with
    | none => .next s
    | some (p, d) =>
      let c := s.flueClass die
      let back := (s.flueReturns die).filter (fun x => (s.launch x.1).space == p && s.effClass (s.launch x.1) == c)
      if back.any (fun x => decide (s.instSize x.1 x.2 ≤ d)) then .next s
      else
        let s1 := s.setVisit die p d
        .next ((match (if back = [] then s.flueLaunch die p else none) with
          | some (id, l) => State.placeWhile (l.record.instances + 1) s1 die id (die * 64 + core) lane
          | none => s1).endVisit die p c)
/-- LAUNCH_BLOCKING (R132): the next instance has not fitted for 2^20 cycles. -/
def execLaunchBlocking (id : Nat) (s : State) : Host.Outcome State Fault Refusal :=
  match s.launches.find id with
  | some l =>
    match l.unfit with
    | some t => if t + 2 ^ 20 ≤ (s.ref l.die).toNat then .next (s.updLaunch id (fun l => { l with blocking := true })) else .next s
    | none => .next s
  | none => .next s

/-! ## The end of a launch (R122 to R124, R130, R307) -/

/-- Whether a launch has come to the point of R122: everything placed, every group ended, every copy over. -/
def State.launchOver (s : State) (id : Nat) (l : Launch) : Bool :=
  l.phase == .running && l.record.instances ≤ l.next && s.groupsOf id == [] && s.colls.all (fun e => e.2.launch != id)
/-- A task retires (R130): its input tiles are empty, unless it was killed. -/
def State.retireTask (s : State) (l : Launch) : State :=
  if l.firstKill.isSome then s
  else l.tiles.foldl (fun s t => if t.result then s else s.setUnits t.pa t.size false) s
/-- The children that a launch held become eligible (R123, R124). -/
def State.releaseHeld (s : State) (id : Nat) : State :=
  (s.launches.filter (fun e => e.2.phase == .held id)).foldl (fun s e => s.makeEligible e.1) s
/-- LAUNCH_END (R122): a launch that is over ends with a release, its generation goes (R187), its children are released, and its
record is posted; one whose record waits for room posts it. In a reset it ends with the reset (R63), and a signature run that must be
repeated does not end, unless it was killed (R297, R307). -/
def execLaunchEnd (id : Nat) (s : State) : Host.Outcome State Fault Refusal :=
  match s.launches.find id with
  | none => .next s
  | some l =>
    if l.phase = .ended then
      match s.postCompletion l l.done with
      | some s' => .next (s'.eraseLaunch id)
      | none => .next s
    else if !s.launchOver id l || (s.part l.space).sealed || ((l.sigRun = 1 || l.sigRun = 2) && l.replayable && l.firstKill.isNone) then .next s
    else
      let s := (s.retireTask l).releaseHeld id
      .next (s.complete id (if l.firstKill.isSome then 1 else 0) (l.firstKill.getD 0))
/-- LEVELw to LEVEL7 of a workgroup of a launch by its linear index (R306). -/
def LRec.wgLevels (r : LRec) (w : Nat) : List Nat := levelsOf (r.exts.drop (r.wgLevel - 1)) (8 - r.wgLevel) w
/-- SIGNATURE_CHECK (R307): after the first run the generation is restored and the launch runs again; after the second it ends if
every workgroup agrees, and otherwise SIGDIFF records are appended and a third run ends it. -/
def execSignatureCheck (id : Nat) (s : State) : Host.Outcome State Fault Refusal :=
  match s.launches.find id with
  | none => .next s
  | some l =>
    if !s.launchOver id l || !l.replayable || l.firstKill.isSome || (s.part l.space).sealed then .next s
    else
      let again := fun (s : State) (f : Launch → Launch) => ((s.rollback id false).updLaunch id f).bump 3 l.space 3 1
      match l.sigRun with
      | 1 => .next (again s (fun x => { x with sigRun := 2, sigsFirst := l.sigs }))
      | 2 =>
        let ws := (l.sigsFirst.map (·.1) ++ l.sigs.map (·.1)).eraseDups
        let bad := ws.filter (fun w => l.sigsFirst.getD w 0 != l.sigs.getD w 0)
        if bad = [] then .next (s.updLaunch id (fun x => { x with sigRun := 0 }))
        else
          let s := bad.foldl (fun s w => s.trace l.space (l.die * 64) 0 7
            (toLE 8 l.seq ++ fit 16 ((l.record.wgLevels w).flatMap (toLE 2)) ++ toLE 8 (l.sigsFirst.getD w 0).toNat ++
              toLE 8 (l.sigs.getD w 0).toNat)) s
          .next (again s (fun x => { x with sigRun := 3, sigDiff := bad }))
      | _ => .next s

end Sys2Proof.Machine
end

