-- ==== Sys2Proof/Machine/Preempt.lean ====
section
/-! DEFINITION. Slices, halting and resumption of partitions (R145, R146, R149), the end of a hold (R150), in-field tests and the
withdrawal of clusters (R151, R299). -/
namespace Sys2Proof.Machine

/-! ## Slices (R145) -/

def sliceKey (space core : Nat) : Nat := space * 256 + core
/-- SLICE_END (R145): the partition's slice on a core has run for its length. -/
def execSliceEnd (space core : Nat) (s : State) : Host.Outcome State Fault Refusal :=
  match s.slices.find (sliceKey space core) with
  | some x =>
    if x.start + (s.part space).slice * 2700 ≤ (s.ref (dieOf core)).toNat then
      .next { s with slices := s.slices.put (sliceKey space core) { x with ended := true } }
    else .next s
  | none => .next s
/-- PREEMPT (R145): the operator ends a partition's slice on a core at once. -/
def execPreempt (who : Who) (p core : Nat) (s : State) : Host.Outcome State Fault Refusal :=
  if 64 < p ∨ 256 ≤ core then .next (s.answer who 2)
  else if who ≠ .operator then .next (s.answer who 1)
  else if (s.part p).sealed then .next (s.answer who 4)
  else
    let s := if (s.coreGroups core).any (fun e => e.2.space == p) then
        { s with slices := s.slices.upd (sliceKey p core) (fun x => { x with ended := true }) }
      else s
    .next (s.answer who 0)

/-! ## Resumption (R149) -/

/-- A group runs again: its budget is full, calls that were answered meanwhile take their results, and threads that were marked
done go on (R80, R137, R149, R150). -/
def State.wake (s : State) (gid : Nat) : State :=
  let g := s.group gid
  let s := s.updGroup gid (fun g => { g with halted := false, haltDue := false, budget := 65536 })
  -- its ready threads join the Grate now (R141)
  let s := { (s.live gid).foldl (fun s t => if (s.thread t).st == .ready then s.updThread t (fun x => { x with since := s.stamp }) else s) s
    with stamp := s.stamp + 1 }
  let s := ((s.part g.space).calls.filter (fun e => e.2.gid == gid)).foldl (fun s e => match e.2.reply with
    | some r => s.deliverReply g.space e.2 r
    | none => s) s
  ((s.live gid).filter (fun t => (s.thread t).st == TState.replied)).foldl (fun s t => s.goOn t) s
/-- GROUP_RESUME (R132, R149): in a visit of the Flue to the partition, the instance on the core that has been halted longest returns
whole, claiming room where it must; its threads count against the deficit, which must cover them. A seal that fails is an uncorrectable
error for the group. -/
def execGroupResume (space core : Nat) (sealOk : Bool) (s : State) : Host.Outcome State Fault Refusal :=
  match s.nextHalted space core, s.flueVisit (dieOf core) with
  | some (launch, inst), some (p, d) =>
    let gs := s.instGroups launch inst
    let n := s.instSize launch inst
    if p ≠ space ∨ d < n ∨ s.effClass (s.launch launch) ≠ s.flueClass (dieOf core) ∨ !s.mayReturn launch inst then .next s
    else match (s.backClaims space gs).bind (fun us => s.claimAll us) with
    | none => .next s
    | some s =>
      let bad := gs.any (fun g => (s.units g).any (fun c => (s.group g).isSpilt c && !(sealOk && s.sealOk g c)))
      if bad then .next (s.consume launch (dieOf core))
      else
        let s := s.setVisit (dieOf core) space (d - n)
        let s := gs.foldl (fun s g => if (s.group g).spilt = 0 then s else s.restoreGroup g) s
        let s := ((gs.map coreOf).eraseDups).foldl (fun s c =>
          { s with slices := s.slices.put (sliceKey space c) { start := (s.ref (dieOf c)).toNat } }) s
        .next (gs.foldl (fun s g => if (s.groups.find g).isSome then s.wake g else s) s)
  | _, _ => .next s

/-! ## Halting a partition (R145, R146) -/

/-- Groups that halting could take off some cores for work of a space (R145, R146): those not halted of other spaces, in an instance
with a workgroup on a core where the slice of its space has ended. -/
def State.haltable (s : State) (space : Nat) (cores : List Nat) : List (Nat × Group) :=
  s.groups.filter (fun e => e.2.space != space && !e.2.halted && cores.contains (coreOf e.1) &&
    (s.instGroups e.2.launch e.2.inst).any (fun g => match s.slices.find (sliceKey e.2.space (coreOf g)) with
      | some x => x.ended
      | none => false))
/-- Whether work of a space that needs `cores` would fit only by claiming room on one core of them: it fits in the room of groups that
are halted or could be, and not without that core's. -/
def State.needsCore (s : State) (space core : Nat) (cores : List Nat) (halted : List RoomUnit) (fits : State → Bool) : Bool :=
  let more := s.haltable space cores
  fits (s.asClaimed (halted ++ s.unitsOf more)) &&
  !fits (s.asClaimed (halted ++ s.unitsOf (more.filter (fun e => coreOf e.1 != core))))
/-- Whether work of another partition would fit on a core only by claiming room there that a running partition holds (R145): an instance
that is eligible, or a halted instance. -/
def State.workWaits (s : State) (space core : Nat) : Bool :=
  s.launches.any (fun e => e.2.space != space && s.mayDispatch (dieOf core) e.1 e.2 && !s.keptBack (dieOf core) e.1 e.2 &&
    (let cores := s.coresFree (domainCores e.2.record.topDomain core)
     s.needsCore e.2.space core cores ((s.haltedSpaces cores).flatMap (fun p => s.roomUnits p cores))
       (fun s => (s.placeInst e.1 0 e.2.next cores).isSome))) ||
  ((s.haltedSpaces [core]).filter (· != space)).any (fun p => match s.nextHalted p core with
    | some (l, i) =>
      let gs := s.instGroups l i
      let cores := (gs.map coreOf).eraseDups
      s.eligibleBack l i && s.needsCore p core cores (((s.haltedSpaces cores).filter (· != p)).flatMap (fun q => s.roomUnits q cores)) (fun s => s.backFits gs)
    | none => false)
/-- PARTITION_HALT (R145, R146): the partition with the oldest ended slice on a core is halted when waiting work needs its room:
every instance with a group there, on all its cores, once no hold keeps it waiting. -/
def execPartitionHalt (space core : Nat) (s : State) : Host.Outcome State Fault Refusal :=
  match s.slices.find (sliceKey space core) with
  | none => .next s
  | some x =>
    let older := s.slices.any (fun e => e.1 % 256 == core && e.1 / 256 != space && e.2.ended && e.2.start < x.start &&
      (s.coreGroups core).any (fun g => g.2.space == e.1 / 256 && !g.2.halted))
    if !x.ended || older || !s.workWaits space core then .next s
    else .next (((s.coreGroups core).filter (fun e => e.2.space == space)).foldl (fun s e => s.dueInst e.2.launch e.2.inst) s)

/-! ## The end of a hold (R150) -/

/-- NOPRE_EXPIRY (R150): the budget of a hold has run out; every thread of the group that has not exited gets the report and takes
it where it stands if it can. -/
def execNopreExpiry (gid : Nat) (s : State) : Host.Outcome State Fault Refusal :=
  match s.groups.find gid with
  | none => .next s
  | some g =>
    match g.hold with
    | none => .next s
    | some a =>
      if g.budget ≠ 0 then .next s
      else
        let s := s.updGroup gid (fun g => { g with hold := none })
        let ts := s.live gid
        let s := ts.foldl (fun s t => s.updThread t (fun x =>
          { x with reports := x.reports ++ [{ cause := .nopreExpired, i1 := a.zeroExtend 64 }] })) s
        .next (ts.foldl (fun s t => if (s.threads.find t).isSome then s.takeReport t else s) s)

/-! ## In-field tests (R151, R299) -/

/-- Groups on a cluster. -/
def State.clusterGroups (s : State) (cluster : Nat) : List (Nat × Group) := s.groups.filter (fun e => coreOf e.1 / 8 == cluster)
/-- INFIELD_TEST (R150, R151): once no group holds of the instances that have one on the cluster, they halt, and none returns before the
test is over; when nothing in flight can write their units on the cluster any longer, the test claims them and begins (log 26). -/
def execInfieldTest (cluster : Fin 32) (s : State) : Host.Outcome State Fault Refusal :=
  let c := cluster.val
  let gs := s.clusterGroups c
  let all := gs.flatMap (fun e => s.instGroups e.2.launch e.2.inst)
  if !s.clusterUp c ∨ s.pkg.testing.contains c ∨ (!s.pkg.tests.contains c ∧ all.any (fun g => (s.group g).hold.isSome)) then .next s
  else
    let s := if s.pkg.tests.contains c then s
      else { gs.foldl (fun s e => if (s.group e.1).halted then s else s.haltInst e.2.launch e.2.inst) s with
             pkg.tests := insertAsc c s.pkg.tests }
    match s.claimAll (s.unitsOf (s.clusterGroups c)) with
    | none => .next s
    | some s => .next ({ s with pkg.testing := insertAsc c s.pkg.testing }.sootAdd 4 c 0 1 (2 ^ 64 - 1))
/-- A launch whose groups are lost with a unit that is withdrawn (R38, R299): a replayable one is rolled back, and killed if no
instance of it fits any longer; any other is killed with cause 0x21. -/
def State.withdrawLaunch (s : State) (id die : Nat) : State :=
  let l := s.launch id
  let killed := fun (s : State) => (s.launchNotice l die 3).killLaunch id 0x21
  if l.replayable then
    let s := (s.launchNotice l die 4).rollback id true
    if s.recordPlaces l.record then s else killed s
  else killed s
/-- Replays of which an instance is still to be placed and fits no cluster in service any longer are killed (R299). -/
def State.killUnplaceable (s : State) (die : Nat) : State :=
  (s.launches.filter (fun e => e.2.attempts != 0 && (e.2.phase == .eligible || e.2.phase == .running) && e.2.next < e.2.record.instances &&
    !s.recordPlaces e.2.record)).foldl (fun s e => (s.launchNotice e.2 die 3).killLaunch e.1 0x21) s
/-- A cluster leaves service for good; its date in the Soot record is the reference count of die 0 (R310, log 30). -/
def State.withdraw (s : State) (cluster : Nat) : State :=
  let i := s.pkg.islands.getD cluster {}
  let s := s.sootAdd 4 cluster 2 (if i.wdrawn then 0 else (s.ref 0).toNat) (2 ^ 64 - 1)
  let s := { s with pkg.islands := s.pkg.islands.put cluster { i with wdrawn := true },
                    pkg.clusters := s.pkg.clusters &&& ~~~(BitVec.ofNat 32 (2 ^ cluster)) }
  ((((s.clusterGroups cluster).map (fun (e : Nat × Group) => e.2.launch)).eraseDups).foldl (fun s l => s.withdrawLaunch l (cluster / 8)) s).killUnplaceable
    (cluster / 8)
/-- INFIELD_TEST_DONE (R151, R299). -/
def execInfieldTestDone (cluster : Fin 32) (pass : Bool) (s : State) : Host.Outcome State Fault Refusal :=
  if !s.pkg.testing.contains cluster.val then .next s
  else
    let s := { s with pkg.tests := s.pkg.tests.filter (· != cluster.val), pkg.testing := s.pkg.testing.filter (· != cluster.val) }
    .next (if pass then s else (s.sootAdd 4 cluster.val 1 1 (2 ^ 64 - 1)).withdraw cluster.val)

end Sys2Proof.Machine
end

