-- ==== Sys2Proof/Machine/Pages.lean ====
section
/-! DEFINITION. Hypervisor calls on frames and pages: who asks and how it is answered (R75, R80, R81), ALLOC, FREE, MAP, UNMAP,
PROTECT, LAZY and QUERY (R86, R90, R91), RESTORE (R99), GFREE and GMAP (R189), SALLOC and SFREE (R177). -/
namespace Sys2Proof.Machine

/-! ## Asking and answering -/

/-- What a call does in a space: an error is the state of one that waits; otherwise its status, the results after it, and the
state. -/
abbrev CallFn := State → Nat → Except State (Nat × List Nat × State)
/-- A call that does nothing but answer a status. -/
def status (s : State) (n : Nat) : Except State (Nat × List Nat × State) := .ok (n, [], s)
/-- BUSY during a reset or a migration freeze of the space (R68, R90). -/
def State.busyPart (s : State) (p : Nat) : Bool := (s.part p).sealed || (s.part p).frozen
/-- The space that a session's request acts on (R75); an operator's acts on none. -/
def spaceFor : Who → Option Nat
  | .operator => none
  | .owner p => some p
  | .auditor => some 64

/-- Serves a hypervisor call: a command of a session completes with its status, a call record that a service core has taken gets
its reply (R75, R80). The record must hold the call's number and operands. The order when several statuses apply is the model's choice
here (log 44): REFUSED and BUSY come before the checks of the call itself. -/
def State.serve (s : State) (src : CallSrc) (no : Nat) (args : List Nat) (f : CallFn) : State :=
  match src with
  | .session who =>
    match spaceFor who with
    | none => s.answer who 1
    | some p =>
      if s.busyPart p then s.answer who 4
      else match f s p with
        | .ok (st, res, s') => s'.answer who st (res.map (BitVec.ofNat 64))
        | .error s' => s'
  | .call space tag =>
    match (s.part space).calls.find tag with
    | some c =>
      if !(c.taken && c.reply.isNone && c.callno == no && args.zipIdx.all (fun a => (c.args.getD a.2 0).toNat == a.1)) then s
      else if s.busyPart space then s.reply space tag [4]
      else match f s space with
        | .ok (st, res, s') => s'.reply space tag ((st :: res).map (BitVec.ofNat 64))
        | .error s' => s'
    | none => s

/-! ## Frames (R90, R92) -/

/-- ALLOC (R49, R90, R92): a run of free frames; with none, the request waits for one. NOFRAMES is for the two counts alone. -/
def execAlloc (src : CallSrc) (count align fix : Nat) (s : State) : Host.Outcome State Fault Refusal :=
  .next (s.serve src 0x8001 [count, align, fix] (fun s p =>
    if count = 0 ∨ 18 < align then status s 2
    else if !s.mayTake p count (fix != 0) then status s 3
    else match s.freeRun count align with
      | some f => .ok (0, [f], (s.takeRun p f count (fix != 0)).gotFrames p)
      | none => .error (s.wantFrames p count align)))

/-- Whether a frame belongs to the save area of a group (R168). -/
def State.saveFrame (s : State) (f : Nat) : Bool :=
  s.groups.any (fun e => e.2.saveFrame ≤ f && f < e.2.saveFrame + e.2.saveCount)
/-- FREE (R90, R190). -/
def execFreeCall (src : CallSrc) (first count : Nat) (s : State) : Host.Outcome State Fault Refusal :=
  .next (s.serve src 0x8002 [first, count] (fun s p =>
    if (upTo count).any (fun i => let o := s.frame (first + i)
        dramFrames ≤ first + i || o.owner != p || o.maps != 0 || s.saveFrame (first + i)) then status s 2
    else .ok (0, [], (upTo count).foldl (fun s i =>
      if s.genNeeds p (first + i) then s.keepForGens p (first + i) else s.giveFrame (first + i)) s)))

/-! ## Pages (R85, R86, R90, R91) -/

/-- Entries of a space whose leaves begin in a range of pages. -/
def State.pagesIn (s : State) (space b n : Nat) : Tab PageEnt :=
  s.pages.filter (fun e => pageKey space b ≤ e.1 && e.1 < pageKey space (b + n) && e.1 / 2 ^ 40 == space)
/-- Splits the leaves that lie across an end of a range. -/
def State.splitEnds (s : State) (space b n : Nat) : State :=
  let one := fun (s : State) (page : Nat) => match s.walk space page with
    | some (x, e) => if x < b || b + n < x + sizePages e.size then s.splitLeaf space page else s
    | none => s
  if n = 0 then s else one (one s b) (b + n - 1)
/-- The valid leaves of a space that cover some page of a range. -/
def State.leavesOver (s : State) (space b n : Nat) : Tab PageEnt :=
  s.pages.filter (fun e => e.1 / 2 ^ 40 == space && e.2.valid && e.1 % 2 ^ 40 < b + n && b < e.1 % 2 ^ 40 + sizePages e.2.size)
/-- Whether something that has translated under a leaf over a range has not taken effect (R91): a load or an atomic, a request at a
port, an element whose host bytes have come and which has not landed, a TLOAD, a queued MDRAIN, a report that SIGRD waits for. -/
def State.inFlight (s : State) (space b n : Nat) : Bool :=
  let leaves := s.leavesOver space b n
  let hit := fun (pa : Nat) => leaves.any (fun e => e.2.addr ≤ pa && pa < e.2.addr + sizePages e.2.size * frameBytes)
  s.fills.any (fun e => s.spaceOf e.2.tid == space && e.2.sectors.any (fun k => hit (32 * k))) ||
  s.pkg.ports.any (fun e => e.2.any (fun r => hit r.pa)) ||
  s.colls.any (fun e => e.2.space == space && e.2.got.any (fun k => hit (256 * k))) ||
  s.tloads.any (fun e => s.spaceOf e.2.tid == space && e.2.left.any (fun r => hit (e.2.src + 32 * r.1) || hit (e.2.src + 32 * r.2 - 1))) ||
  s.matq.any (fun q => q.2.any (fun e => s.spaceOf e.tid == space && (match e.op with
    | .mdrain _ d _ n fmt _ => hit (flatPa d) || hit (flatPa d + 256 * drainBytes fmt * n - 1)
    | _ => false))) ||
  s.sigrds.any (fun e => s.spaceOf e.1 == space && hit e.2.buf)
/-- Whether a closed generation still needs a page of a range whose content is at the source of a migration: what would remove its entry
waits for the pull (log 67). -/
def State.pullFirst (s : State) (space b n : Nat) : Bool :=
  (s.part space).gens.any (fun g => g.2.closed && g.2.shared.any (fun q => b ≤ q && q < b + n && (g.2.drained.find q).isNone &&
    (match s.walk space q with | some (_, e) => !e.valid && e.state == 3 | none => false)))
/-- Changes MAPS of the frames under a DRAM leaf. -/
def State.countMaps (s : State) (e : PageEnt) (f : Nat → Nat) : State :=
  if e.valid && e.kind == 0 then
    (upTo (sizePages e.size)).foldl (fun s i =>
      let k := e.addr / frameBytes + i
      s.setFrame k { s.frame k with maps := f (s.frame k).maps }) s
  else s
/-- Removes every entry of a range: the range is at STATE 0, and what closed generations share of it stays with them (R90, R190). -/
def State.clearPages (s : State) (space b n : Nat) : State :=
  let s := s.splitEnds space b n
  (s.pagesIn space b n).foldl (fun s e =>
    let s := (upTo (sizePages e.2.size)).foldl (fun s i => s.holdForGens space (e.1 % 2 ^ 40 + i)) s
    (s.countMaps e.2 (· - 1)).erasePage space (e.1 % 2 ^ 40)) s
/-- A range that an address and a length name: multiples of 64 KiB (R90). -/
def rangeArgs (va len : Nat) : Bool := va % frameBytes == 0 && len % frameBytes == 0
/-- A range wholly in the paged part of a space (R171). -/
def pagedRange (va len : Nat) : Bool := va + len ≤ flatBase

/-- Bits of an attributes word (R90). -/
def attrRd (w : W64) : Bool := w.getLsbD 1
def attrW (w : W64) : Bool := w.getLsbD 2
def attrXe (w : W64) : Bool := w.getLsbD 3
def attrKind (w : W64) : Nat := w.toNat / 16 % 8
def attrReach (w : W64) : Nat := w.toNat / 2 ^ 59 % 4
/-- No other bit is set. -/
def attrClean (w : W64) : Bool := w &&& ~~~(0x180000000000007E : W64) == 0
/-- REACH against KIND (R88). -/
def reachFits (reach kind : Nat) : Bool :=
  match reach with
  | 0 => true
  | 1 => kind == 0 || kind == 1
  | 2 => kind == 0
  | _ => kind == 2

/-- MAP (R86, R88, R90, R91, R171): a leaf over frames of the space, or over host memory, whose address the frame number gives;
it replaces what was there. KIND 1, 3 and 4 leaves are not installed by MAP (log 27), and aside copies and save areas are not mapped
(log 67). -/
def execMapCall (src : CallSrc) (va frame size : Nat) (attrs : W64) (s : State) : Host.Outcome State Fault Refusal :=
  .next (s.serve src 0x0003 [va, frame, size, attrs.toNat] (fun s p =>
    let n := sizePages size
    let b := va / frameBytes
    let kind := attrKind attrs
    let frames := (upTo n).map (frame + ·)
    if 3 < size then status s 2
    else if va % (n * frameBytes) ≠ 0 ∨ !pagedRange va (n * frameBytes) ∨ frame % n ≠ 0 ∨ !attrClean attrs ∨
        (kind ≠ 0 ∧ kind ≠ 2) ∨ !reachFits (attrReach attrs) kind then status s 2
    else if !inRegion kind (frame * frameBytes) ∨ !inRegion kind ((frame + n) * frameBytes - 1) then status s 2
    else if kind = 0 ∧ frames.any (fun f => (s.frame f).owner != p || s.asideFrame p f || s.saveFrame f) then status s 1
    else if kind = 0 ∧ (frames.any (fun f => 16382 ≤ (s.frame f).maps) ∨
        (frames.any (fun f => (s.frame f).fix) ∧ frames.any (fun f => !(s.frame f).fix))) then status s 2
    else if s.inFlight p b n || s.pullFirst p b n then .error s
    else
      let e : PageEnt :=
        { valid := true, size := size, fix := kind == 0 && (s.frame frame).fix, reach := attrReach attrs, owner := p,
          addr := frame * frameBytes, kind := kind, xe := attrXe attrs, w := attrW attrs, rd := attrRd attrs }
      .ok (0, [], (((s.clearPages p b n).setPage p b e).countMaps e (· + 1)).endWaits p b n)))
/-- UNMAP (R90, R91): STATE 0 over a paged range. -/
def execUnmap (src : CallSrc) (va len : Nat) (s : State) : Host.Outcome State Fault Refusal :=
  .next (s.serve src 0x0004 [va, len] (fun s p =>
    let b := va / frameBytes
    let n := len / frameBytes
    if !rangeArgs va len ∨ !pagedRange va len then status s 2
    else if s.inFlight p b n || s.pullFirst p b n then .error s
    else .ok (0, [], (s.clearPages p b n).endWaits p b n)))
/-- PROTECT (R90, R91): RD, W and XE of valid leaves and of the attributes kept at STATE 1, 2 and 3. -/
def execProtect (src : CallSrc) (va len rd w xe : Nat) (s : State) : Host.Outcome State Fault Refusal :=
  .next (s.serve src 0x0005 [va, len, rd, w, xe] (fun s p =>
    let b := va / frameBytes
    let n := len / frameBytes
    if !rangeArgs va len ∨ vaMod < va + len ∨ 1 < rd ∨ 1 < w ∨ 1 < xe then status s 2
    else if (s.leavesOver p b n).any (fun e => e.2.kind == 3 || e.2.kind == 4) then status s 2
    else if s.inFlight p b n then .error s
    else
      let s := s.splitEnds p b n
      .ok (0, [], { s with pages := s.pages.map (fun e =>
        if pageKey p b ≤ e.1 && e.1 < pageKey p (b + n) && (e.2.valid || (e.2.state != 0 && e.2.state != 4)) then
          (e.1, { e.2 with rd := rd == 1, w := w == 1, xe := xe == 1 })
        else e) })))
/-- LAZY (R87, R90, R91): STATE 1 over a paged range, with the attributes kept for each page. -/
def execLazy (src : CallSrc) (va len : Nat) (attrs : W64) (s : State) : Host.Outcome State Fault Refusal :=
  .next (s.serve src 0x8006 [va, len, attrs.toNat] (fun s p =>
    let b := va / frameBytes
    let n := len / frameBytes
    if !rangeArgs va len ∨ !pagedRange va len ∨ !attrClean attrs ∨ attrKind attrs ≠ 0 ∨ !reachFits (attrReach attrs) 0 then status s 2
    else if s.inFlight p b n || s.pullFirst p b n then .error s
    else
      let e : PageEnt :=
        { valid := false, state := 1, reach := attrReach attrs, owner := p, kind := 0, xe := attrXe attrs, w := attrW attrs, rd := attrRd attrs }
      .ok (0, [], (upTo n).foldl (fun s i => s.setPage p (b + i) e) (s.clearPages p b n))))

/-! ## QUERY (R86) -/

/-- The pattern of a refused field of `n` bits (R52). -/
def refusedBits (n : Nat) : Nat := refusedWord / 2 ^ (64 - n)
/-- A page-table entry as a word (R86). Of an entry with V = 0, the model shows OWNER, STATE and the slot, and leaves out the attributes
kept for the page, which R86 does not place there: RD, W, XE, KIND and FIX read 0 (log 68). -/
def PageEnt.word (e : PageEnt) : Nat :=
  if e.valid then
    2 ^ 63 + 2 ^ 62 + bit e.fix * 2 ^ 61 + e.reach * 2 ^ 59 + e.owner * 2 ^ 52 + e.addr / 128 * 128 % 2 ^ 52 + e.kind * 16 +
      bit e.xe * 8 + bit e.w * 4 + bit e.rd * 2
  else e.state * 2 ^ 60 + e.owner * 2 ^ 52 + (if e.state = 2 ∨ e.state = 3 then e.addr * 128 % 2 ^ 52 else 0)
/-- The entry with every field refused but, for the operator, FIX and OWNER (R86). -/
def PageEnt.masked (e : PageEnt) (op : Bool) : Nat :=
  refusedBits 1 * 2 ^ 63 + refusedBits 1 * 2 ^ 62 +
    (if op then bit (e.valid && e.fix) * 2 ^ 61 + e.owner * 2 ^ 52 else refusedBits 1 * 2 ^ 61 + refusedBits 7 * 2 ^ 52) +
    refusedBits 2 * 2 ^ 59 + refusedBits 45 * 2 ^ 7 + refusedBits 3 * 16 + 14
/-- The leaf entry of an address (R90). -/
def State.leafWord (s : State) (p va : Nat) : PageEnt :=
  match s.walk p (va / frameBytes) with
  | some (_, e) => e
  | none => { valid := false }
/-- QUERY (R75, R86, R90): an owner sees the entries of its own space, the operator FIX and OWNER of any partition's, the auditor
nothing of its own. -/
def execQuery (src : CallSrc) (p va : Nat) (s : State) : Host.Outcome State Fault Refusal :=
  let word := fun (s : State) (q : Nat) =>
    if va % frameBytes ≠ 0 ∨ vaMod ≤ va then status s 2 else .ok (0, [(s.leafWord q va).word], s)
  match src with
  | .session .operator =>
    if va % frameBytes ≠ 0 ∨ vaMod ≤ va ∨ 64 ≤ p then .next (s.answer .operator 2)
    else if s.busyPart p then .next (s.answer .operator 4)
    else .next (s.answer .operator 1 [BitVec.ofNat 64 ((s.leafWord p va).masked true)])
  | .session .auditor =>
    if va % frameBytes ≠ 0 ∨ vaMod ≤ va then .next (s.answer .auditor 2)
    else .next (s.answer .auditor 1 [BitVec.ofNat 64 ((s.leafWord 64 va).masked false)])
  | .session (.owner q) =>
    if q ≠ p then .next (s.answer (.owner q) 1) else .next (s.serve src 0x0007 [va] word)
  | .call .. => .next (s.serve src 0x0007 [va] word)

/-! ## Generations (R99, R189) -/

/-- A drained generation of a space by its serial, while its lower-tier store can be reached (R99). -/
def State.drainedGen (s : State) (p serial : Nat) : Option Gen :=
  match (s.part p).gens.find serial with
  | some g => if g.state = 4 && s.pkg.tierUp then some g else none
  | none => none
/-- RESTORE (R99): LOST pages of a range that have a copy in a drained generation. -/
def execRestore (src : CallSrc) (gen va len : Nat) (s : State) : Host.Outcome State Fault Refusal :=
  .next (s.serve src 0x8009 [gen, va, len] (fun s p =>
    let b := va / frameBytes
    let n := len / frameBytes
    if !rangeArgs va len ∨ !pagedRange va len then status s 2
    else match s.drainedGen p gen with
      | none => status s 5
      | some g => .ok (0, [], { s with pages := s.pages.map (fun e =>
          if pageKey p b ≤ e.1 && e.1 < pageKey p (b + n) && !e.2.valid && e.2.state == 4 then
            match g.drained.find (e.1 % 2 ^ 40) with
            | some slot => (e.1, { e.2 with state := 2, addr := slot })
            | none => e
          else e) })))
/-- GFREE (R189). -/
def execGfree (src : CallSrc) (serial : Nat) (s : State) : Host.Outcome State Fault Refusal :=
  .next (s.serve src 0x8011 [serial] (fun s p =>
    match (s.part p).gens.find serial with
    | some g => if g.state = 2 ∨ g.state = 3 ∨ g.state = 4 ∨ g.state = 6 then .ok (0, [], s.dropGen p serial) else status s 2
    | none => status s 2))
/-- GMAP (R189): pages of a drained generation, read-only, in a range at STATE 0; a page that the generation does not hold has an empty
copy (log 67). -/
def execGmap (src : CallSrc) (serial srcVa dstVa len : Nat) (s : State) : Host.Outcome State Fault Refusal :=
  .next (s.serve src 0x8012 [serial, srcVa, dstVa, len] (fun s p =>
    let b := dstVa / frameBytes
    let n := len / frameBytes
    if !rangeArgs srcVa len ∨ !rangeArgs dstVa len ∨ !pagedRange dstVa len ∨ !pagedRange srcVa len then status s 2
    else match s.drainedGen p serial with
      | none => status s 5
      | some g =>
        if (upTo n).any (fun i => match s.walk p (b + i) with | some (_, e) => e.valid || e.state != 0 | none => false) then status s 2
        else .ok (0, [], (upTo n).foldl (fun s i =>
          let r := match g.drained.find (srcVa / frameBytes + i) with | some slot => (slot, s) | none => s.newSlot Image.blank
          r.2.setPage p (b + i) { valid := false, state := 2, owner := p, addr := r.1, rd := true }) s)))

/-! ## Scratchpad (R175, R177) -/

/-- The first run of free frames of a slice. -/
def State.freeScr (s : State) (core count : Nat) : Option Nat :=
  ((upTo 128).map (sliceFrame core + ·)).find? (fun f =>
    f + count ≤ sliceFrame core + 128 && (upTo count).all (fun i => (s.frame (f + i)).owner == 127))
/-- SALLOC (R177, R433). -/
def execSalloc (src : CallSrc) (die core count : Nat) (s : State) : Host.Outcome State Fault Refusal :=
  .next (s.serve src 0x800E [die, core, count] (fun s p =>
    if 3 < die ∨ 63 < core ∨ count = 0 ∨ 128 < count then status s 2
    else if (s.part p).scrcap < s.scrHeld p + count then status s 3
    else match s.freeScr (die * 64 + core) count with
      | none => status s 3
      | some f => .ok (0, [flatBase + (f - dramFrames) * frameBytes], (upTo count).foldl (fun s i =>
          let s := s.takeScr p (f + i)
          { s with grants := s.grants.put (f + i) p }) s)))
/-- SFREE (R91, R175, R177). -/
def execSfree (src : CallSrc) (addr count : Nat) (s : State) : Host.Outcome State Fault Refusal :=
  .next (s.serve src 0x8010 [addr, count] (fun s p =>
    let f := dramFrames + (addr - flatBase) / frameBytes
    let lo := flatPa addr
    let hi := lo + count * frameBytes
    let inside := fun (va n : Nat) => isFlat va && flatPa va < hi && lo < flatPa va + n
    if addr % frameBytes ≠ 0 ∨ !isFlat addr ∨ (upTo count).any (fun i => s.grants.find (f + i) != some p) ∨
        s.queues.any (fun e => e.2.spans.any (fun r => inside r.1 r.2)) then status s 2
    else if s.inFlight p (addr / frameBytes) count then .error s
    else .ok (0, [], ({ s with grants := Tab.keep s.grants (fun k _ => !(f ≤ k && k < f + count)) }).freeScratch p)))

end Sys2Proof.Machine
end

