-- ==== Sys2Proof/Machine/Service.lean ====
section
/-! DEFINITION. Binding and closing queues (R78, R100, R101, R104, R110, R112), the service arbiter and replies (R80 to R83),
appends of closed packets (R105), the network port (R111), and the drains of generations (R186). -/
namespace Sys2Proof.Machine

/-! ## Binding (R100, R101, R104, R110) -/

/-- Whether a range lies wholly in scratchpad, or wholly on fixed DRAM frames, of a space (R100), and on dies that are there (R38). -/
def State.homeRange (s : State) (space va n : Nat) (scratch : Bool) : Bool :=
  (upTo (n / frameBytes + 2)).all (fun i =>
    match s.xlate space none (min (va + i * frameBytes) (va + n - 1)) with
    | .leaf pa e => e.owner == space && (if scratch then e.kind == 1 else e.kind == 0 && e.fix) && !s.lostDie pa
    | _ => false)
/-- ESIZE within R101. -/
def esizeFits (kind esize : Nat) : Bool :=
  match kind with
  | 0 | 5 => 1 ≤ esize && esize ≤ 8
  | 1 => esize == 4
  | 2 | 6 => esize == 2
  | 3 | 4 => esize == 1
  | _ => false
/-- Whether a page of the paged range is at STATE 0 with no leaf mapping it (R100). -/
def State.freePage (s : State) (space page : Nat) : Bool :=
  isPaged (page * frameBytes) &&
  (match s.walk space page with | some (_, e) => !e.valid && e.state == 0 | none => true)
/-- The lowest HANDLE that no bound queue of a space holds (R110). -/
def State.freeHandle (s : State) (space : Nat) : Option Nat :=
  ((upTo (s.queues.length + 1)).find? (fun h => (s.queue space h).isNone)).bind (fun h => if h ≤ 0xFFFE then some h else none)
/-- Physical address of a window page: an endpoint-window address that names the queue (log 28). -/
def windowPa (space handle : Nat) : Nat := 0xC000000000000 + (space * 65536 + handle) * frameBytes

/-- The queue that a control word describes, before it is bound; `none` for an answer INVALID (R78, R90, R100, R101, R110,
log 32). That NETRX beside a kind other than 0 and a control word that is bound already are INVALID, and that address bits [63:56] do not
count, is the model's choice (log 69). -/
def State.describe (s : State) (space cw : Nat) (kinds : List Nat) : Option Queue :=
  if cw % frameBytes ≠ 0 ∨ !(s.homeRange space cw 32 false || s.homeRange space cw 32 true) ∨
      s.queues.any (fun e => e.1 / 65536 == space && e.2.cw == cw) then none
  else
    let b := s.loadVa space cw 32
    let f := fun (o n : Nat) => fieldLE b o n
    let kind := f 26 1
    let flags := f 27 1
    let q : Queue :=
      { space := space, cw := cw, kind := kind, base := f 0 8, window := f 16 8 / frameBytes, logDepth := f 24 1, esize := f 25 1,
        scratch := flags.testBit 0, netrx := flags.testBit 1 }
    if !kinds.contains kind ∨ !esizeFits kind q.esize ∨ q.logDepth = 0 ∨ 16 < q.logDepth ∨ flags / 16 ≠ 0 ∨ (q.netrx ∧ kind ≠ 0) ∨
        q.base % 256 ≠ 0 ∨ vaMod ≤ q.base ∨ f 16 8 % frameBytes ≠ 0 ∨ vaMod ≤ f 16 8 ∨ f 8 8 ≠ 0 ∨
        f 30 2 ≠ 0 then none
    else if !s.homeRange space q.base (q.depth * q.esize * 32) q.scratch ∨ !s.freePage space q.window then none
    else some q
/-- Binds a queue: its HANDLE, its window page (R104) and its control word. -/
def State.bind (s : State) (space h : Nat) (q : Queue) : State :=
  let rd := q.kind == 0 || q.kind == 4
  let w := q.kind == 0 || q.kind == 1 || q.kind == 5 || q.kind == 6
  (s.setPage space q.window { valid := true, owner := space, addr := windowPa space h, kind := 4, w := w, rd := rd }).writeQueue space h q
/-- Unbinds a queue and unmaps its window; entries in memory stay, scratchpad frames that only the queue kept are free (R175), and pages
that wait keep no place in a fault queue that is gone. -/
def State.unbind (s : State) (space h : Nat) (q : Queue) : State :=
  let s := State.freeScratch { s.erasePage space q.window with queues := s.queues.erase (qKey space h) } space
  let off := fun (e : Nat × PageWait) => if e.1 / 2 ^ 40 == space then (e.1, { e.2 with posted := none }) else e
  if q.kind = 3 then { s with pageWaits := s.pageWaits.map off, pageMore := s.pageMore.map off } else s
/-- Without the queues of a space that a binding call replaces: those on the same control word, or the one of a kind that a space has at
most once, which can no longer be used (R38). -/
def State.dropUnsound (s : State) (space kind cw : Nat) : State :=
  (s.queues.filter (fun e => e.1 / 65536 == space && (e.2.cw == cw || (e.2.kind == kind && 2 ≤ kind && kind ≤ 4)) &&
    !s.queueSound space e.2)).foldl (fun s e => s.unbind space (e.1 % 65536) e.2) s
/-- QBIND (R78, R90, R101); INVALID too when no HANDLE is free (log 69). -/
def execQbind (src : CallSrc) (kind cw : Nat) (s : State) : Host.Outcome State Fault Refusal :=
  .next (s.serve src 0x8008 [kind, cw] (fun s p =>
    let s' := s.dropUnsound p kind cw
    if kind = 0 ∨ 4 < kind ∨ (kind ≠ 1 ∧ (s'.kindQueue p kind).isSome) then status s 2
    else match s'.describe p cw [kind], s'.freeHandle p with
      | some q, some h =>
        let s := s'.bind p h q
        .ok (0, [h], if kind = 3 then s.postFaults p else s)
      | _, _ => status s 2))
/-- QOPEN (R110, R111). -/
def execQopen (src : CallSrc) (cw srcDev srcPart : Nat) (s : State) : Host.Outcome State Fault Refusal :=
  .next (s.serve src 0x800A [cw, srcDev, srcPart] (fun s p =>
    let s' := s.dropUnsound p 0 cw
    match s'.describe p cw [0, 5], s'.freeHandle p with
    | some q, some h => .ok (0, [h], s'.bind p h { q with srcDev := srcDev, srcPart := srcPart })
    | _, _ => status s 2))
/-- The bound queue of a control word. -/
def State.queueAt (s : State) (space cw : Nat) : Option (Nat × Queue) :=
  (s.queues.find? (fun e => e.1 / 65536 == space && e.2.cw == cw)).map (fun e => (e.1 % 65536, e.2))
/-- Whether a packet or a claim is open on a queue, or a dequeue load has translated into its window (R91, R110). -/
def State.queueOpen (s : State) (space h : Nat) (q : Queue) : Bool :=
  q.waiting != [] ||
  s.threads.any (fun e => s.spaceOf e.1 == space &&
    ((match e.2.packet with | some p => p.handle == h | none => false) || (match e.2.claim with | some c => c.handle == h | none => false))) ||
  s.fills.any (fun e => s.spaceOf e.2.tid == space && (match e.2.what with | .dequeue x .. => x == h | _ => false))
/-- QCLOSE (R110): answered only when no packet and no claim is open on the queue; INVALID for a word that is not bound or an NVMe
queue's (log 69). -/
def execQclose (src : CallSrc) (cw : Nat) (s : State) : Host.Outcome State Fault Refusal :=
  .next (s.serve src 0x800B [cw] (fun s p =>
    match s.queueAt p cw with
    | some (h, q) => if q.kind = 6 then status s 2 else if s.queueOpen p h q then .error s else .ok (0, [], s.unbind p h q)
    | none => status s 2))

/-! ## NVMe queue pairs (R110, R112, R113) -/

/-- The function of a requester ID. -/
def State.nvFunction (s : State) (fn : BitVec 16) : Option PciFn := s.pkg.functions.find? (fun x => x.id == fn)
/-- The storage link is down (R113). A pair that is bound brings it out of L1 (R46). -/
def State.storageDown (s : State) : Bool := (s.pkg.links.getD 16 {}).state == 3
/-- The lowest free queue number of a function (R110). -/
def State.nvFree (s : State) (f : PciFn) : Option Nat :=
  ((upTo 65).drop 1).find? (fun y => y ≤ f.queues && s.queues.all (fun e => !(e.2.kind == 6 && e.2.fn == f.id && e.2.nvq == y)))
/-- NVBIND (R110, R112): the queue pair, the window and the doorbell page; INVALID too when the completion queue is not in scratchpad or
on fixed frames (log 69). -/
def execNvbind (src : CallSrc) (fn : BitVec 16) (cw cq cqLog bell : Nat) (s : State) : Host.Outcome State Fault Refusal :=
  .next (s.serve src 0x800C [fn.toNat, cw, cq, cqLog, bell] (fun s p =>
    if s.storageDown then status s 5
    else if cw % frameBytes ≠ 0 ∨ cq % frameBytes ≠ 0 ∨ bell % frameBytes ≠ 0 then status s 2
    else match s.nvFunction fn with
    | none => status s 5
    | some f =>
      if f.space ≠ p then status s 1
      else match s.describe p cw [6], s.freeHandle p, s.nvFree f with
      | some q, some h, some y =>
        if q.logDepth ≠ cqLog ∨ !s.fixedRange p cq (2 ^ cqLog * 16) ∨
            !s.freePage p (bell / frameBytes) ∨ bell / frameBytes = q.window then status s 2
        else
          let s := { s with pkg.links := s.pkg.links.upd 16 (fun l => { l with l1 := false }) }
          let s := s.bind p h { q with fn := fn, nvq := y, bell := bell / frameBytes, cq := cq, cqLog := cqLog }
          .ok (0, [y], s.setPage p (bell / frameBytes) { valid := true, owner := p, addr := f.bar, kind := 3, w := true })
      | _, _, _ => status s 2))
/-- Deletes a queue pair with its window and doorbell page. It waits for no packet: closed ones that wait for room are dropped, and an
open one keeps a HANDLE that names nothing (log 69). -/
def State.nvDelete (s : State) (space h : Nat) (q : Queue) : State := (s.erasePage space q.bell).unbind space h q
/-- NVFREE (R110, R113): a pair with commands outstanding waits for them, or for NVFREE_ABORT; it completes at once when its
function is no longer present. -/
def execNvfree (src : CallSrc) (cw : Nat) (s : State) : Host.Outcome State Fault Refusal :=
  .next (s.serve src 0x800D [cw] (fun s p =>
    match s.queueAt p cw with
    | some (h, q) =>
      if q.kind ≠ 6 then status s 2
      else if (s.nvFunction q.fn).isNone then .ok (0, [], s.nvDelete p h q)
      else if s.storageDown then status s 5
      else match s.freshQueue p h with
        | some x =>
          if x.count = 0 then .ok (0, [], s.nvDelete p h q)
          else if q.closing.isSome then .error s
          else .error (s.setQueue p h { q with closing := some (src, (s.ref 0).toNat) })
        | none => status s 2
    | none => status s 2))
/-- NVFREE_ABORT (R110): 100 ms after an NVFREE began, the commands still outstanding are aborted and it completes. -/
def execNvfreeAbort (space cw : Nat) (s : State) : Host.Outcome State Fault Refusal :=
  match s.queueAt space cw with
  | some (h, q) =>
    match q.closing with
    | some (src, t) =>
      if t + 270000000 ≤ (s.ref 0).toNat then
        .next (s.serve src 0x800D [cw] (fun s p => .ok (0, [], s.nvDelete p h q)))
      else .next s
    | none => .next s
  | none => .next s

/-! ## The service arbiter and replies (R80 to R83) -/

/-- Numbers that the hypervisor serves, and those that it serves as calls of R90, R110, R177 and R189 (R81). -/
def hyperNumber (n : Nat) : Bool := n ≤ 0xFF || (0x8000 ≤ n && n ≤ 0x80FF)
def hyperCalls : List Nat :=
  [0x8001, 0x8002, 0x0003, 0x0004, 0x0005, 0x8006, 0x0007, 0x8008, 0x8009, 0x800A, 0x800B, 0x800C, 0x800D, 0x800E, 0x8010, 0x8011,
   0x8012]
/-- The queue of a flow: flow 2p is the calls of partition p, flow 2p + 1 its faults. -/
def State.flowQueue (s : State) (k : Nat) : Option (Nat × Queue) := s.kindQueue (k / 2) (2 + k % 2)
/-- Whether a service can take a record from the queue of a flow: it holds one, and its pages can be used (R38, R185). -/
def State.ringWaits (s : State) (k : Nat) : Bool :=
  !(s.part (k / 2)).frozen && (match s.flowQueue k with
    | some (_, q) => q.count != 0 && s.queueSound (k / 2) q && s.mayPop (k / 2) q
    | none => false)
/-- Whether a flow has records waiting: those of its queue, and the reports of the call flow that SIGRD waits for (R83, R431). -/
def State.flowWaits (s : State) (k : Nat) : Bool :=
  s.ringWaits k || (k % 2 == 0 && !(s.part (k / 2)).frozen && s.sigrds.any (fun e => s.spaceOf e.1 == k / 2))
/-- A flow's share, and its deficit (R83). -/
def State.flowShare (s : State) (k : Nat) : Nat := if k % 2 = 0 then (s.part (k / 2)).callk else (s.part (k / 2)).faultk
def State.flowDeficit (s : State) (k : Nat) : Nat := if k % 2 = 0 then (s.part (k / 2)).flowCall else (s.part (k / 2)).flowFault
def State.setDeficit (s : State) (k n : Nat) : State :=
  s.updPart (k / 2) (fun p => if k % 2 = 0 then { p with flowCall := n } else { p with flowFault := n })
/-- What one record costs a flow: the least share (log 29). -/
def recordCost : Nat := 250
/-- A service takes the record at the head of a flow's queue (R79, R83). -/
def State.serveRecord (s : State) (k : Nat) : State :=
  let space := k / 2
  match s.flowQueue k with
  | none => s
  | some (h, q) =>
    let tag := fieldLE (s.headEntry space q) 8 4
    let s := s.pop space h
    if k % 2 = 1 then s
    else match (s.part space).calls.find tag with
      | some c => if c.posted && !c.taken then s.setCall space { c with taken := true } else s
      | none => s
/-- A flow's turn (R83): one record of it is served when deficit round robin over the flows of the partitions, from the one served last,
comes to it; a flow that is empty forfeits its deficit. The faults of the auditor space are taken beside it. -/
def State.takeTurn (s : State) (k : Nat) (serve : State → State) : State :=
  if !s.flowWaits k || !s.served .service then s
  else if 128 ≤ k then serve s
  else
    let a := s.pkg.arbiter
    let go := fun (s : State) (d : Nat) =>
      let s := (serve s).setDeficit k (d - recordCost)
      let s := { s with pkg.arbiter := k }
      if s.flowWaits k then s else s.setDeficit k 0
    if a = k ∧ recordCost ≤ s.flowDeficit k then go s (s.flowDeficit k)
    else if s.flowWaits a ∧ recordCost ≤ s.flowDeficit a then s
    else
      let between := ((upTo 127).map (fun i => (a + 1 + i) % 128)).takeWhile (· != k)
      if between.any s.flowWaits then s
      else go (between.foldl (fun s f => s.setDeficit f 0) s) (s.flowDeficit k + s.flowShare k)
/-- CALL_SERVE (R83): a service takes the record at the head of a flow's queue, in the flow's turn. -/
def execCallServe (space : Nat) (flt : Bool) (s : State) : Host.Outcome State Fault Refusal :=
  let k := space * 2 + bit flt
  .next (if s.ringWaits k then s.takeTurn k (fun s => s.serveRecord k) else s)
/-- SIGRD_REPORT_DONE (R431): one record of the partition's call flow; the report is written whole and the thread goes on, or is marked
done in a halted group. -/
def execSigrdReportDone (tid : Nat) (s : State) : Host.Outcome State Fault Refusal :=
  match s.sigrds.find tid with
  | none => .next s
  | some q =>
    .next (s.takeTurn (2 * s.spaceOf tid) (fun s =>
      let r := s.attest q.subject q.nonce
      let s := { r.2 with sigrds := r.2.sigrds.erase tid }.devStore (s.spaceOf tid) q.buf r.1
      if (s.thread tid).st = .waiting .report then s.retireAt tid else s))
/-- CALL_REPLY (R80 to R82): a service's reply record. The calls of the hypervisor answer for themselves, and a number of its
range that it does not serve is answered with status 6. -/
def execCallReply (space tag : Nat) (res : List W64) (s : State) : Host.Outcome State Fault Refusal :=
  match (s.part space).calls.find tag with
  | some c =>
    if c.taken && hyperNumber c.callno then
      (if hyperCalls.contains c.callno then .next s else .next (s.reply space tag [6]))
    else .next (s.reply space tag res)
  | none => .next (s.reply space tag res)

/-! ## Packets that wait (R105) -/

/-- PACKET_APPEND (R105): the oldest closed packet that waits for room is appended; one whose queue can no longer be used is lost, and
the group that closed it is killed (R38, R289). -/
def execPacketAppend (space handle : Nat) (s : State) : Host.Outcome State Fault Refusal :=
  match s.queue space handle with
  | none => .next s
  | some q =>
    match q.waiting with
    | [] => .next s
    | (tid, p) :: rest =>
      if !s.queueSound space q then
        let s := s.setQueue space handle { q with waiting := rest }
        .next (if (s.groups.find (gidOf tid)).isSome then s.doubleFault (gidOf tid) else s)
      else match (s.setQueue space handle { q with waiting := rest }).append space handle p.flits.flatten with
      | some s' => .next (s'.fromLaunch space handle q.tail (s.group (gidOf tid)).launch)
      | none => .next s

/-! ## The network port (R111) -/

/-- Whether a chip-to-chip port is up. -/
def State.netUp (s : State) : Bool := (upTo 8).any (fun i => (s.pkg.links.getD (8 + i) {}).state == 1)
/-- Whether an entry's header is well formed: a length of 1 to 8 flits, and bytes 5 to 7 zero. -/
def headerOk (b : List Byte) : Bool := 1 ≤ fieldLE b 4 1 && fieldLE b 4 1 ≤ 8 && fieldLE b 5 3 == 0
/-- NETWORK_SEND (R111): `accepted` tells whether the destination took the entry; one that it drops, or that is lost with its
link, sets DROP. -/
def execNetworkSend (space handle : Nat) (accepted : Bool) (s : State) : Host.Outcome State Fault Refusal :=
  match s.queue space handle with
  | none => .next s
  | some q =>
    if q.kind ≠ 5 ∨ q.count = 0 ∨ !s.netUp ∨ !s.served .network ∨ !s.queueSound space q then .next s
    else
      let e := s.headEntry space q
      let ok := accepted && headerOk e
      let s := s.pop space handle
      if ok then .next { s with pkg.netOut := s.pkg.netOut ++ [e] }
      else match s.queue space handle with
        | some q => .next (s.writeQueue space handle { q with drop := true })
        | none => .next s
/-- NETWORK_RECEIVE (R111): an entry for a NETRX queue from its permitted source; a full queue holds the sender back. -/
def execNetworkReceive (handle srcDev srcPart space : Nat) (entry : List Byte) (s : State) : Host.Outcome State Fault Refusal :=
  match s.queue space handle with
  | none => .next s
  | some q =>
    if !q.netrx ∨ !s.netUp ∨ !s.served .network ∨ q.srcDev ≠ srcDev ∨ q.srcPart ≠ srcPart ∨ !headerOk entry then .next s
    else match s.append space handle (toLE 2 srcDev ++ toLE 2 srcPart ++ (entry.drop 4).take (32 * fieldLE entry 4 1 - 4)) with
      | some s' => .next s'
      | none => .next s

/-! ## Drains (R186) -/

/-- A generation passes from one state to another. -/
def State.genTo (s : State) (p serial from' next : Nat) : State :=
  s.updGen p serial (fun g => if g.state = from' then { g with state := next } else g)
def State.genState (s : State) (p serial : Nat) : Nat := match (s.part p).gens.find serial with | some g => g.state | none => 0
/-- DRAIN_START (R74, R186): no older generation is draining. -/
def execDrainStart (p serial : Nat) (s : State) : Host.Outcome State Fault Refusal :=
  if !s.served .drain || (s.part p).gens.any (fun e => e.1 < serial && e.2.state == 3) then .next s else .next (s.genTo p serial 2 3)
/-- The drained generation that came before a serial. -/
def State.lastDrained (s : State) (p serial : Nat) : Option (Nat × Gen) :=
  ((s.part p).gens.filter (fun e => e.1 < serial && e.2.state == 4)).getLast?
/-- Writes a granule's content for a generation to the lower tier, or records by reference one that the drained generation before it
holds alike (R186). -/
def State.drainPage (s : State) (p serial page : Nat) (img : Image) : State :=
  let old := (s.lastDrained p serial).bind (fun d => (d.2.drained.find page).bind (fun slot =>
    if s.slots.find slot = some img then some (slot, d.1) else none))
  match old with
  | some (slot, d) => s.updGen p serial (fun g => { g with drained := g.drained.put page slot, ref := some d })
  | none => let r := s.newSlot img; r.2.updGen p serial (fun g => { g with drained := g.drained.put page r.1 })
/-- The granules of a generation whose content must still come from the source of a migration (R97, R190). -/
def State.drainPulls (s : State) (p : Nat) (g : Gen) : Bool :=
  g.shared.any (fun q => (g.drained.find q).isNone &&
    (match s.walk p q with | some (_, e) => !e.valid && e.state == 3 | none => false))
/-- DRAIN_DONE (R186, R296): each granule that is not yet in the lower tier comes from its aside frame, else from the live frame, else
from the copy of an evicted page, and is empty if nothing was ever stored there; a live frame that has been written there is no longer DIRTY (R89). Then the aside frames
and the number are free. -/
def execDrainDone (p serial : Nat) (s : State) : Host.Outcome State Fault Refusal :=
  match (s.part p).gens.find serial with
  | none => .next s
  | some g =>
    if g.state ≠ 3 ∨ !s.tierServed ∨ s.drainPulls p g then .next s
    else
      let s := (g.asides ++ g.held).foldl (fun s e => s.drainPage p serial e.1 (s.imageOf (frameAddr e.2))) s
      let s := (g.shared.filter (fun q => (g.drained.find q).isNone)).foldl (fun s page =>
        match s.walk p page with
        | some (b, e) =>
          if e.valid then
            let s := s.drainPage p serial page (s.imageOf (e.addr + (page - b) * frameBytes))
            match ((s.part p).gens.find serial).bind (fun g => g.drained.find page) with
            | some slot => s.sealed (e.addr / frameBytes + (page - b)) slot
            | none => s
          else if e.state = 2 then s.updGen p serial (fun g => { g with drained := g.drained.put page e.addr })
          else if e.state = 1 then s.drainPage p serial page Image.blank
          else s
        | none => s) s
      .next ((s.freeAsides p serial).updGen p serial (fun g => { g with state := 4, num := 0, shared := [] }))
/-- DRAIN_FAIL (R62, R186). -/
def execDrainFail (p serial : Nat) (s : State) : Host.Outcome State Fault Refusal :=
  if s.genState p serial ≠ 3 then .next s else .next ((s.genTo p serial 3 6).eventNotice 3 1 p (serial % 2 ^ 32))
/-- DRAIN_RETRY (R186): a retry that reaches the lower tier goes on with the drain; one that does not is a failure again. -/
def execDrainRetry (p serial : Nat) (ok : Bool) (s : State) : Host.Outcome State Fault Refusal :=
  if s.genState p serial ≠ 6 then .next s
  else if ok then .next (s.genTo p serial 6 3) else .next (s.eventNotice 3 1 p (serial % 2 ^ 32))

end Sys2Proof.Machine
end

