-- ==== Sys2Proof/Machine/Registers.lean ====
section
/-! DEFINITION. Control registers of the command interface: fields with their rights rows (R51, R52), what a read delivers, what a
write does, and the registers themselves (R32, R37, R42, R74, R76, R77, R131, R153, R175, R209, R225, R303, R304, R433, R434). -/
namespace Sys2Proof.Machine

/-! ## Fields and rights rows (R51, R52) -/

/-- A position of a rights row: nothing, R or C, W, or both. -/
inductive Right where
  | no
  | r
  | w
  | rw
  deriving DecidableEq, Repr
def Right.reads : Right → Bool
  | .r | .rw => true
  | _ => false
def Right.writes : Right → Bool
  | .w | .rw => true
  | _ => false
/-- A field: its place, its value, and the rights of operator, owner and auditor. -/
structure Field where
  lo : Nat
  width : Nat
  val : Nat
  op : Right
  own : Right
  aud : Right
  deriving DecidableEq, Repr
/-- The position of a row that a reader or writer has: an owner only in its own partition. -/
def Field.right (f : Field) (who : Who) (subject : Option Nat) : Right :=
  match who with
  | .operator => f.op
  | .auditor => f.aud
  | .owner p => match subject with | some q => if q = p then f.own else .no | none => f.own
/-- A read of a register field by field (R52): the value, and whether a field was refused. -/
def readFields (fs : List Field) (who : Who) (subject : Option Nat) : Nat × Bool :=
  fs.foldl (fun a f => if (f.right who subject).reads then (a.1 + f.val % 2 ^ f.width * 2 ^ f.lo, a.2)
    else (a.1 + refusedBits f.width * 2 ^ f.lo, true)) (0, false)
/-- The word that a write would leave: the written bits in the fields that the writer may write, and the old value in the others. -/
def mergeFields (fs : List Field) (who : Who) (subject : Option Nat) (v : Nat) : Nat :=
  fs.foldl (fun a f => a + (if (f.right who subject).writes then v / 2 ^ f.lo % 2 ^ f.width else f.val % 2 ^ f.width) * 2 ^ f.lo) 0
/-- A field is refused to a writer that may not write it while another party may. -/
def refusedWrite (fs : List Field) (who : Who) (subject : Option Nat) : Bool :=
  fs.any (fun f => !(f.right who subject).writes && (f.op.writes || f.own.writes || f.aud.writes))
def mayWrite (fs : List Field) (who : Who) (subject : Option Nat) : Bool := fs.any (fun f => (f.right who subject).writes)

/-! ## The registers -/

/-- Numbers in range. -/
def Reg.there : Reg → Bool
  | .ctl (.pctl p) | .ctl (.pshare p) | .ctl (.phold p) | .ctl (.pscr p) | .ctl (.pcomp p) | .ctl (.pscope p) | .ctl (.precl p)
  | .pframes p | .trctl p => p < 64
  | .ctl (.lcblo p k) | .ctl (.lcbhi p k) => p < 64 && k < 16
  | .ctl (.lcidle d c) => d < 4 && c < 64
  | .ctl (.linkst k) => k < 17
  | .ctl (.gslot d c s) | .ctl (.gpc d c s) => d < 4 && c < 64 && s < 512
  | .ctl .audcap | .ctl .audscr | .ctl .acomp | .ctl .bringst | .ctl .svccap => true
  | .islop i => i < 40
/-- The partition that a register belongs to: its owner's rights are those of that partition alone. -/
def State.regPart (s : State) : Reg → Option Nat
  | .ctl (.pctl p) | .ctl (.pshare p) | .ctl (.phold p) | .ctl (.pscr p) | .ctl (.pcomp p) | .ctl (.pscope p) | .ctl (.precl p)
  | .ctl (.lcblo p _) | .ctl (.lcbhi p _) | .pframes p | .trctl p => some p
  | .ctl (.gslot d c n) | .ctl (.gpc d c n) => match s.groups.find ((d * 64 + c) * 512 + n) with
    | some g => some g.space
    | none => some 127
  | _ => none

/-- Thousands of records per second that the service set handles (R74). -/
def State.capk (s : State) : Nat := 1000 * (s.pkg.kindling.filter (· == KindSet.service)).length
/-- The sum of CALLK and FAULTK over the 64 partitions other than one, whether or not each exists (R74, R76, log 70). -/
def State.shares (s : State) (but : Nat) : Nat :=
  (((upTo 64).filter (· != but)).map (fun p => (s.part p).callk + (s.part p).faultk)).sum
/-- The sum of GUAR over the partitions other than one. -/
def State.guars (s : State) (but : Nat) : Nat := ((s.parts.filter (fun e => e.1 < 64 && e.1 != but)).map (fun e => e.2.guar)).sum
/-- Frames that guarantees may sum to beside AUDCAP (R76). -/
def guarRoom : Nat := 12582912 - 262144

/-- The step in force of an island (R31, R35). -/
def State.islandStep (s : State) (i : Nat) : Nat := if i < 32 then s.clusterStep i else (s.pkg.islands.getD i {}).step
/-- GSLOT STATE (R153). -/
def State.slotState (s : State) (gid : Nat) : Nat :=
  let g := s.group gid
  if g.halted then (if g.spilt = 0 then 1 else if (s.units gid).all g.isSpilt then 3 else 2)
  else if s.live gid != [] && (s.live gid).all (fun t => match (s.thread t).st with
    | .waiting (.call _) | .waiting (.callRing _) => true
    | _ => false) then 4 else 0

/-- Rows that many registers share. -/
def rowStatus (lo width val : Nat) : Field := ⟨lo, width, val, .r, .r, .r⟩
def rowOp (lo width val : Nat) : Field := ⟨lo, width, val, .rw, .r, .r⟩
def rowAudit (lo width val : Nat) : Field := ⟨lo, width, val, .rw, .no, .r⟩
def rowMeter (lo width val : Nat) : Field := ⟨lo, width, val, .r, .no, .r⟩
def rowOwner (lo width val : Nat) : Field := ⟨lo, width, val, .no, .rw, .no⟩
/-- MARGIN: the worst lane's (R42); 0 while none has been estimated. -/
def Link.worst (l : Link) : Nat := match l.margins with | [] => 0 | e :: r => r.foldl (fun m x => min m x.2) e.2
/-- The fields of a register with their values; reserved bits belong to none and read zero. -/
def State.fields (s : State) : Reg → List Field
  | .ctl (.pctl p) => [rowStatus 7 1 (bit (s.part p).live), ⟨0, 2, (s.part p).migpol, .r, .rw, .r⟩]
  | .ctl (.pshare p) => [rowOp 16 16 (s.part p).callk, rowOp 0 16 (s.part p).faultk]
  | .pframes p => [rowOp 32 24 (s.part p).burst, rowOp 0 24 (s.part p).guar]
  | .ctl (.phold p) => [rowStatus 32 24 (s.fixed p), rowStatus 0 24 (s.resident p)]
  | .ctl .audcap => [rowMeter 32 24 (s.resident 64), rowAudit 0 24 s.pkg.audcap]
  | .ctl (.pscr p) => [rowStatus 32 16 (s.scrHeld p), rowOp 0 16 (s.part p).scrcap]
  | .ctl .audscr => [rowMeter 32 16 (s.scrHeld 64), rowAudit 0 16 (s.part 64).scrcap]
  | .ctl (.pcomp p) => [rowOp 32 16 (s.part p).slice, rowOp 16 3 (s.part p).maxcls, rowOp 0 16 (s.part p).weight]
  | .ctl .acomp => [rowAudit 32 16 (s.part 64).slice, rowAudit 16 3 (s.part 64).maxcls, rowAudit 0 16 (s.part 64).weight]
  | .ctl (.pscope p) => [rowOp 0 3 (s.part p).sceil]
  | .ctl (.precl p) => [rowStatus 16 13 (s.part p).reclaims.length, rowStatus 0 13 4096]
  | .ctl (.lcblo p k) => [⟨0, 56, (s.lcb.getD ((p * 16 + k) * 2) 0).toNat, .no, .r, .rw⟩]
  | .ctl (.lcbhi p k) => [⟨0, 56, (s.lcb.getD ((p * 16 + k) * 2 + 1) 0).toNat, .no, .r, .rw⟩]
  | .ctl (.lcidle d c) => [rowMeter 0 64 (s.lcIdle (d * 64 + c)).toNat]
  | .ctl .bringst =>
    [rowStatus 32 32 s.pkg.clusters.toNat, rowStatus 20 4 s.pkg.stackOk.toNat, rowStatus 16 4 s.pkg.fullDie.toNat,
     rowStatus 10 2 s.pkg.emberDie, rowStatus 0 4 s.pkg.stage]
  | .ctl .svccap => [rowStatus 0 16 s.capk]
  | .ctl (.linkst k) =>
    let l := s.pkg.links.getD k {}
    [rowMeter 32 32 l.corr, rowMeter 24 8 l.worst, rowMeter 16 8 l.retry, rowMeter 8 4 l.rate, rowMeter 0 2 l.state,
     -- UPREQ is W/—/— (R42): it reads 0 to the operator, and its read is refused to the others (log 83)
     ⟨4, 1, 0, .rw, .no, .no⟩]
  | .ctl (.gslot d c n) =>
    let gid := (d * 64 + c) * 512 + n
    let g := s.group gid
    match s.groups.find gid with
    | none => [rowStatus 63 1 0, rowStatus 60 3 0, rowStatus 53 7 0, rowStatus 51 2 0, rowStatus 45 6 0, rowStatus 32 8 0, rowStatus 0 17 0]
    | some _ =>
      [rowStatus 63 1 1, rowStatus 60 3 (s.slotState gid), rowStatus 53 7 g.space, rowStatus 51 2 (Nat.log2 (g.width / 8)),
       rowStatus 45 6 g.laneBase, rowStatus 32 8 g.spilt.toNat, rowStatus 0 17 g.budget]
  | .ctl (.gpc d c n) =>
    let gid := (d * 64 + c) * 512 + n
    [⟨0, 56, (match s.live gid with | t :: _ => (s.thread t).pc.toNat | [] => 0), .no, .r, .no⟩]
  | .trctl p =>
    let c := (s.part p).trctl.toNat
    [rowOwner 63 1 (c / 2 ^ 63), rowOwner 62 1 (c / 2 ^ 62), rowOwner 61 1 (c / 2 ^ 61), rowOwner 60 1 (c / 2 ^ 60),
     rowOwner 59 1 (c / 2 ^ 59), rowOwner 48 9 (c / 2 ^ 48), rowOwner 32 16 (c / 2 ^ 32), rowOwner 16 16 (c / 2 ^ 16), rowOwner 0 16 c]
  | .islop i =>
    let x := s.pkg.islands.getD i {}
    [⟨12, 4, x.ceil, .rw, .no, .no⟩, rowMeter 8 4 x.therm, rowMeter 4 4 (s.islandStep i), rowMeter 0 1 (bit x.wdrawn)]
/-- What a read of a register delivers, with the status of the command (R52). -/
def State.readReg (s : State) (who : Who) (r : Reg) : Nat × Nat :=
  if !r.there then (0, 2)
  else
    let x := readFields (s.fields r) who (s.regPart r)
    (x.1, if x.2 then 1 else 0)

/-- A READ OF A REGISTER by a session (R8, R49, R52, R68): INVALID out of range, BUSY during a sealed act on its partition. -/
def State.readCmd (s : State) (who : Who) (r : Reg) : State :=
  if r.there && (match s.regPart r with | some p => s.busyPart p | none => false) then s.answer who 4
  else
    let x := s.readReg who r
    if x.2 = 2 then s.answer who 2 else s.answer who x.2 [BitVec.ofNat 64 x.1]

/-! ## Writes (R52) -/

/-- Whether a word keeps every field within its limits and every rule that ties fields together. -/
def State.wordFits (s : State) (r : Reg) (w : Nat) : Bool :=
  let f := fun (lo n : Nat) => w / 2 ^ lo % 2 ^ n
  let comp := 100 ≤ f 32 16 && 1 ≤ f 0 16
  match r with
  | .ctl (.pctl _) => f 0 2 ≤ 2
  | .ctl (.pshare p) =>
    250 ≤ f 16 16 && f 16 16 ≤ 48000 && 250 ≤ f 0 16 && f 0 16 ≤ 48000 && s.shares p + f 16 16 + f 0 16 ≤ s.capk
  | .pframes p => f 0 24 ≤ f 32 24 && s.fixed p ≤ f 0 24 && s.guars p + f 0 24 + s.pkg.audcap ≤ guarRoom
  | .ctl .audcap => s.resident 64 ≤ f 0 24 && s.guars 64 + f 0 24 ≤ guarRoom
  | .ctl (.pscr _) | .ctl .audscr => f 0 16 ≤ 32768
  | .ctl (.pcomp _) | .ctl .acomp => comp
  | .ctl (.pscope _) => 2 ≤ f 0 3 && f 0 3 ≤ 6
  | .islop _ => f 12 4 ≤ 4
  | _ => true
/-- An island's state changes; a change of the step in force begins a relock (R33). -/
def State.setIsland (s : State) (i : Nat) (f : Island → Island) : State :=
  let s' := { s with pkg.islands := s.pkg.islands.put i (f (s.pkg.islands.getD i {})) }
  if s'.islandStep i = s.islandStep i then s'
  else { s' with pkg.islands := s'.pkg.islands.upd i (fun x => { x with relock := true }) }
/-- Times at each step are counted up to now in the Soot record (R31, R310). -/
def State.markSteps (s : State) : State :=
  let now := (s.ref 0).toNat
  let s' := (upTo 40).foldl (fun s i => s.sootAdd 3 i (s.islandStep i) (now - s.pkg.sootMark) (2 ^ 64 - 1)) s
  { s' with pkg.sootMark := now }
/-- A register takes a word. -/
def State.setReg (s : State) (r : Reg) (w : Nat) : State :=
  let f := fun (lo n : Nat) => w / 2 ^ lo % 2 ^ n
  let part := fun (p : Nat) (g : Part → Part) => s.setPart p (g (s.part p))
  match r with
  | .ctl (.pctl p) => part p (fun x => { x with migpol := f 0 2 })
  | .ctl (.pshare p) => part p (fun x => { x with callk := f 16 16, faultk := f 0 16 })
  | .pframes p => part p (fun x => { x with burst := f 32 24, guar := f 0 24 })
  | .ctl .audcap => { s with pkg.audcap := f 0 24 }
  | .ctl (.pscr p) => part p (fun x => { x with scrcap := f 0 16 })
  | .ctl .audscr => part 64 (fun x => { x with scrcap := f 0 16 })
  | .ctl (.pcomp p) => part p (fun x => { x with slice := f 32 16, maxcls := f 16 3, weight := f 0 16 })
  | .ctl .acomp => part 64 (fun x => { x with slice := f 32 16, maxcls := f 16 3, weight := f 0 16 })
  | .ctl (.pscope p) => part p (fun x => { x with sceil := f 0 3 })
  | .ctl (.lcblo p k) => { s with lcb := s.lcb.putZ 0 ((p * 16 + k) * 2) (BitVec.ofNat 56 w) }
  | .ctl (.lcbhi p k) => { s with lcb := s.lcb.putZ 0 ((p * 16 + k) * 2 + 1) (BitVec.ofNat 56 w) }
  | .trctl p =>
    let s1 := part p (fun x => { x with trctl := BitVec.ofNat 64 w })
    -- selections end when EN is cleared (R305)
    if w / 2 ^ 63 % 2 = 1 then s1
    else { s1 with traceSel := Tab.keep s1.traceSel (fun k _ => k % 128 != p),
                   groups := Tab.mapVals s1.groups (fun g => if g.space = p then { g with records := 0 } else g) }
  | .islop i => s.markSteps.setIsland i (fun x => { x with ceil := f 12 4 })
  | _ => s
/-- A WRITE OF A REGISTER (R49, R52, R68): out of range it is INVALID; during a sealed act on its partition BUSY; a word outside its
limits changes nothing and is INVALID; otherwise the fields that the writer may write take it, and the status is REFUSED when a
field was refused. -/
def State.writeReg (s : State) (who : Who) (r : Reg) (v : W64) : State :=
  if !r.there then s.answer who 2
  else
    let part := s.regPart r
    let fs := s.fields r
    let w := mergeFields fs who part v.toNat
    if (match part with | some p => s.busyPart p | none => false) then s.answer who 4
    else if mayWrite fs who part && !s.wordFits r w then s.answer who 2
    else
      let s' := if mayWrite fs who part then s.setReg r w else s
      s'.answer who (if refusedWrite fs who part then 1 else 0)

def State.link (s : State) (k : Nat) : Link := s.pkg.links.getD k {}
def State.setLink (s : State) (k : Nat) (l : Link) : State := { s with pkg.links := s.pkg.links.put k l }
/-- The operator requests one step up of a link (R40, R42): taken only when the link is up, not at its fastest step, and every lane's eye
margin passes at the higher rate; otherwise the link stays where it is, and the status is INVALID. -/
def State.upReq (s : State) (k : Nat) (pass : Bool) : State :=
  let l := s.link k
  if l.state ≠ 1 ∨ l.rate = 0 ∨ !pass then s.answer .operator 2
  else (s.setLink k { l with rate := l.rate - 1, state := 2, retry := min 255 (l.retry + 1) }).answer .operator 0
/-- REGISTER_WRITE (R52): every register that has no write of its own. A 1 in UPREQ of LINKST asks for a step up (R42), for which
`Config.eyePasses` tells whether the eye margins pass. -/
def execRegisterWrite (who : Who) (r : CtlReg) (v : W64) (s : State) : Host.Outcome State Fault Refusal :=
  match r with
  | .linkst k =>
    if who = .operator ∧ k < 17 ∧ v.getLsbD 4 then .next (s.upReq k (Config.eyePasses k (s.link k).retry))
    else .next (s.writeReg who (.ctl (.linkst k)) v)
  | _ => .next (s.writeReg who (.ctl r) v)
/-- PFRAMES_WRITE (R76). -/
def execPframesWrite (who : Who) (p : Nat) (v : W64) (s : State) : Host.Outcome State Fault Refusal :=
  .next (s.writeReg who (.pframes p) v)
/-- TRCTL_WRITE (R304). -/
def execTrctlWrite (who : Who) (p : Nat) (v : W64) (s : State) : Host.Outcome State Fault Refusal :=
  .next (s.writeReg who (.trctl p) v)
/-- ISLOP_WRITE (R32). -/
def execIslopWrite (who : Who) (i : Fin 40) (v : W64) (s : State) : Host.Outcome State Fault Refusal :=
  .next (s.writeReg who (.islop i.val) v)

/-- Both sets that a transfer of migration needs are served (R74). -/
def State.pullServed (s : State) : Bool := s.served .drain && s.served .network
/-! ## Commands beside registers (R74, R89, R301) -/

/-- A session reads a counter of R301 by its number (R8, R154): `—/C/C` for an owner in its own partition, `—/—/C` otherwise; a refused
counter gives the pattern of R52. -/
def State.readCount (s : State) (who : Who) (n : Nat) : State :=
  let bank := n / 2 ^ 28 % 16
  let subject := n / 2 ^ 20 % 256
  let may := match who with
    | .operator => false
    | .owner p => bank < 2 && subject == p
    | .auditor => true
  let listed := bank ≤ 8 && (subject ≤ 64 || subject == 0xFF)
  let v :=
    if bank = 2 then (if n % 2 ^ 20 < 8 then (s.account subject).fields.getD (n % 2 ^ 20) 0 else 0)
    else if 64 < subject then 0 else s.ctrs.getD (ctrNo bank subject (n % 2 ^ 20)) 0
  if may then s.answer who 0 [if listed then v else 0] else s.answer who 1 [BitVec.ofNat 64 refusedWord]

/-- KINDLING_REBIND (R74): REFUSED to all but the operator, INVALID when the shares would exceed the capacity left. -/
def execKindlingRebind (who : Who) (core : Fin 64) (qset : KindSet) (s : State) : Host.Outcome State Fault Refusal :=
  if who ≠ .operator then .next (s.answer who 1)
  else
    let s' := { s with pkg.kindling := s.pkg.kindling.set core.val qset }
    if s'.capk < s'.shares 64 then .next (s.answer who 2)
    else
      -- a pull is out again once both of its sets are served (R98)
      let s' := if s.pullServed || !s'.pullServed then s'
        else { s' with parts := Tab.mapVals s'.parts (fun x => { x with pullAsked := (s.ref 0).toNat }) }
      .next (s'.answer who 0)
/-- The fields of an ownership-table entry (R89). -/
def Own.fields (o : Own) : List Field :=
  [⟨25, 7, o.owner, .r, .r, .r⟩, ⟨21, 4, o.epoch, .no, .no, .no⟩, ⟨20, 1, bit o.fix, .r, .r, .no⟩, ⟨19, 1, bit o.ref, .no, .no, .no⟩,
   ⟨18, 1, bit o.dirty, .no, .no, .no⟩, ⟨14, 4, o.gen, .no, .r, .no⟩, ⟨0, 14, o.maps, .no, .r, .no⟩]
/-- OWNERSHIP_QUERY (R49, R52, R68, R89): an owner may query only its own frames; BUSY during a sealed act on the frame's owner or on the
partition of the session. -/
def execOwnershipQuery (who : Who) (frame : Nat) (s : State) : Host.Outcome State Fault Refusal :=
  if dramFrames + 32768 ≤ frame then .next (s.answer who 2)
  else
    let o := s.frame frame
    if s.busyPart o.owner || (match who with | .owner p => s.busyPart p | _ => false) then .next (s.answer who 4)
    else
    let x := readFields o.fields who (some o.owner)
    .next (s.answer who (if x.2 then 1 else 0) [BitVec.ofNat 64 x.1])

end Sys2Proof.Machine
end

