-- ==== Sys2Proof/Machine/Package.lean ====
section
/-! DEFINITION. The package: power and bring-up (R34 to R38, R310), islands and their relocks (R31, R33), links (R39 to R42), the
Rinnor ports (R43 to R45) and the storage port (R47). -/
namespace Sys2Proof.Machine

/-! ## Power and bring-up (R34 to R38) -/

/-- The boot certificate (R69): the identity key signs the digest of both public keys, the four firmware digests and the boot count. -/
def bootCertificate (boots : Nat) : List Byte :=
  fit 114 (Config.identity (Config.shake256 (fit 57 (Config.ed448Key boots) ++ fit 56 (Config.x448Key boots) ++
    (upTo 4).flatMap (fun i => fit 64 (Config.firmware i)) ++ toLE 4 boots) 64))
/-- What outlives a device reset: the Soot record (of which a loss of power leaves what was last written), the sequences that are monotonic
over the life of the part and the chains of readings (R313), host memory, what has left the device, and what the outside still asks for. A device that starts makes fresh keys for its system and for the
auditor space (R55), and its identity key signs the boot certificate and accepts no further use (R69). -/
def State.restart (s : State) (supply : Bool) (passed : BitVec 32) : State :=
  let boots := s.pkg.boots + (if supply then 1 else 0)
  let d := s.pkg.draws
  { State.reset with
    pkg := { Pkg.reset with supply := supply, passed := passed, boots := boots, identityUsed := supply,
                            bootCert := if supply then some boots else none, draws := if supply then d + 4 else d,
                            sysKey := d, sysBond := d + 1, reportSeq := s.pkg.reportSeq, readingSeq := s.pkg.readingSeq, readings := s.pkg.readings,
                            soot := s.pkg.soot, sootLive := if supply then s.pkg.sootLive else s.pkg.soot, lastReading := s.pkg.lastReading, replies := s.pkg.replies, portOut := s.pkg.portOut,
                            bells := s.pkg.bells, netOut := s.pkg.netOut, migOut := s.pkg.migOut, migIn := s.pkg.migIn },
    parts := (s.parts.filter (fun e => e.1 < 64 && e.2.lastReading != [])).map (fun e => (e.1, { lastReading := e.2.lastReading })) ++
      [(64, { Part.auditor with key := d + 2, bond := d + 3, lastReading := (s.part 64).lastReading })],
    mem := Tab.keep s.mem (fun a _ => inRegion 2 a),
    agenda := s.agenda }
/-- POWER_ON (R34, R69): stage 0; the service die measures its images and makes fresh keys, so the boot count rises. `passed` holds
the clusters that pass the power-on test. -/
def execPowerOn (passed : BitVec 32) (s : State) : Host.Outcome State Fault Refusal :=
  .next (if s.pkg.supply then s else s.restart true passed)
/-- DEVICE_RESET (R34, R127, R152). -/
def execDeviceReset (passed : BitVec 32) (s : State) : Host.Outcome State Fault Refusal := .next (s.restart true passed)
/-- POWER_LOSS (R310): all volatile state goes. -/
def execPowerLoss (s : State) : Host.Outcome State Fault Refusal := .next (s.restart false 0)
/-- Fresh data and bond keys of a space (R55): a key is known by the number of its draw (log 7). -/
def State.freshKeys (s : State) (p : Nat) : State :=
  { s.setPart p { s.part p with key := s.pkg.draws, bond := s.pkg.draws + 1 } with pkg.draws := s.pkg.draws + 2 }
/-- STAGE_HOST_ATTACH (R34, R74). -/
def execStageHostAttach (s : State) : Host.Outcome State Fault Refusal :=
  .next (if s.pkg.stage = 0 then { s with pkg.stage := 1 } else s)
/-- The clusters of a die among a mask. -/
def dieMask (d : Nat) : BitVec 32 := BitVec.ofNat 32 (255 * 2 ^ (8 * d))
def diesMask (ds : BitVec 4) : BitVec 32 := (upTo 4).foldl (fun (m : BitVec 32) d => if ds.getLsbD d then m ||| dieMask d else m) 0
/-- The Ember die (R35, R38): die 0 if all its clusters passed, else the lowest die all of whose clusters passed, else the lowest
with a cluster that passed. -/
def emberOf (passed : BitVec 32) : Option Nat :=
  ((upTo 4).find? (fun d => passed &&& dieMask d == dieMask d)).or ((upTo 4).find? (fun d => passed &&& dieMask d != 0))
/-- STAGE_EMBER (R35, R38): without a cluster that passed the device stays in stage 1. -/
def execStageEmber (s : State) : Host.Outcome State Fault Refusal :=
  if s.pkg.stage ≠ 1 then .next s
  else match emberOf s.pkg.passed with
    | none => .next s
    | some d => .next { s.markSteps with pkg.stage := 2, pkg.emberDie := d, pkg.ember := true, pkg.clusters := s.pkg.passed &&& dieMask d }
/-- Loads and atomics on their way to memory that is lost are an uncorrectable error for their issuer (R41). -/
def State.lostInFlight (s : State) : State :=
  (s.fills.filter (fun e => e.2.sectors.any (fun k => s.lostDie (32 * k)))).foldl (fun s e =>
    match s.fills.find e.1 with
    | some f => ({ s with fills := s.fills.erase e.1 }).consumeAt f.tid
    | none => s) s
/-- The ring of its space that a thread in a wait needs, by KIND (R289). -/
def Wait.ring : Wait → Option Nat
  | .call _ | .callRing _ => some 2
  | .page _ => some 3
  | .reclaim => some 4
  | _ => none
/-- Groups with a thread that waits on a ring which can no longer be used are killed (R38, R289). -/
def State.needRings (s : State) : State :=
  s.groups.foldl (fun s e => [2, 3, 4].foldl (fun s k =>
    if (s.groups.find e.1).isSome && (s.live e.1).any (fun t => match (s.thread t).st with | .waiting w => w.ring == some k | _ => false) then
      s.needQueue e.1 k
    else s) s) s
/-- A die is withdrawn (R37, R38, R41): its service island and its eight clusters leave service, with the launches on them, and its stack
and scratchpad are lost, with what was on its way there and the rings that lay there. -/
def State.withdrawDie (s : State) (d : Nat) : State :=
  let mask := BitVec.ofNat 4 (2 ^ d)
  let s := { s with pkg.islands := s.pkg.islands.put (32 + d) { s.pkg.islands.getD (32 + d) {} with wdrawn := true } }
  let s := { s with pkg.gone := s.pkg.gone ||| mask, pkg.stackOk := s.pkg.stackOk &&& ~~~mask, pkg.fullDie := s.pkg.fullDie &&& ~~~mask,
                    pkg.clusters := s.pkg.clusters &&& ~~~(dieMask d) }
  (((upTo 8).foldl (fun s c => s.withdraw (8 * d + c)) s).lostInFlight).needRings
/-- The training of a stack succeeds in stage 2 (R37). -/
def State.stackTrained (s : State) (d : Nat) : State :=
  if s.pkg.stage = 2 ∧ !s.pkg.failed.getLsbD d then { s with pkg.stackOk := s.pkg.stackOk ||| BitVec.ofNat 4 (2 ^ d) } else s
/-- STACK_TRAINING_FAIL (R37, R38): the training of a stack fails in stage 2; after the third time the stack is withdrawn with its die, the
Ember die's at the move to stage 3. -/
def execStackTrainingFail (d : Fin 4) (s : State) : Host.Outcome State Fault Refusal :=
  if s.pkg.stage ≠ 2 ∨ s.pkg.stackOk.getLsbD d.val ∨ s.pkg.failed.getLsbD d.val then .next s
  else
    let n := s.pkg.trainings.getD d.val 0 + 1
    let s := { s with pkg.trainings := s.pkg.trainings.put d.val n }
    if n < 3 then .next s
    else
      let s := { s with pkg.failed := s.pkg.failed ||| BitVec.ofNat 4 (2 ^ d.val) }
      .next (if d.val = s.pkg.emberDie then s else s.withdrawDie d.val)
/-- Links that were untrained come up, at the rate at which they trained (R34, R42, R46). -/
def State.trainLinks (s : State) (ks : List Nat) : State :=
  ks.foldl (fun s k => let l := s.pkg.links.getD k {}
    if l.state = 0 then { s with pkg.links := s.pkg.links.put k { l with state := 1 } } else s) s
/-- STAGE_FULL_COMPUTE (R36 to R38, R76): every die whose stack trained is in full compute; a die whose stack did not is withdrawn, and a
cluster that has been withdrawn stays out of service; the clusters of the Ember die change to their steps; the first frames of the lowest
stack that trained are the reserve of space 65 (log 71). With no stack trained the device stays in stage 2. That the die-to-die links,
which train in stage 2, all come up at this move is the model's choice (log 71). -/
def execStageFullCompute (s : State) : Host.Outcome State Fault Refusal :=
  if s.pkg.stage ≠ 2 ∨ s.pkg.failed = 0xF then .next s
  else
    let good := ~~~s.pkg.failed
    let s1 := (s.markSteps).trainLinks (upTo 8)
    let s2 := { s1 with pkg.stage := 3, pkg.ember := false, pkg.stackOk := good, pkg.fullDie := good,
                        pkg.reserve := ((upTo 4).find? (fun d => good.getLsbD d)).map (3145728 * ·),
                        pkg.clusters := s.pkg.passed &&& diesMask good &&&
                          ~~~((upTo 32).foldl (fun (m : BitVec 32) c =>
                            if (s.pkg.islands.getD c {}).wdrawn then m ||| BitVec.ofNat 32 (2 ^ c) else m) 0) }
    let s3 := (upTo 8).foldl (fun s c =>
      let i := s.pkg.emberDie * 8 + c
      if s.islandStep i = 4 then s
      else { s with pkg.islands := s.pkg.islands.put i { s.pkg.islands.getD i {} with relock := true } }) s2
    .next ((upTo 4).foldl (fun s d => if s.pkg.failed.getLsbD d && !s.pkg.gone.getLsbD d then s.withdrawDie d else s) s3)
/-- STAGE_FULL_SERVICE (R34, R112): the chip-to-chip links and the storage port are up, and the root port has enumerated `fns`. -/
def execStageFullService (fns : List PciFn) (s : State) : Host.Outcome State Fault Refusal :=
  if s.pkg.stage ≠ 3 then .next s
  else .next { s.trainLinks ((upTo 9).map (8 + ·)) with pkg.stage := 4, pkg.functions := fns }

/-! ## Islands (R31, R33) -/

/-- A change of an island's thermal step, counted in its histograms (R31, R310): the time at the step before, and the change. The time
below the limit counts from now. -/
def State.thermal (s : State) (i therm : Nat) : State :=
  (s.markSteps.setIsland i (fun x => { x with therm := therm, below := (s.ref 0).toNat })).sootAdd 3 i 22 1 (2 ^ 64 - 1)
/-- THERMAL_RISE (R31): the crossing is counted, and the thermal step rises by one; at step 4 it has no step to rise to (log 54). -/
def execThermalRise (i : Fin 40) (s : State) : Host.Outcome State Fault Refusal :=
  let t := (s.pkg.islands.getD i.val {}).therm
  let s := s.sootAdd 3 i.val 5 1 (2 ^ 64 - 1)
  .next (if t < 4 then s.thermal i.val (t + 1)
    else { s with pkg.islands := s.pkg.islands.upd i.val (fun x => { x with below := (s.ref 0).toNat }) })
/-- THERMAL_FALL (R31): once the sensor has stayed below its limit for 10 ms, 27,000,000 counts of the reference. -/
def execThermalFall (i : Fin 40) (s : State) : Host.Outcome State Fault Refusal :=
  let x := s.pkg.islands.getD i.val {}
  if x.therm = 0 ∨ (s.ref 0).toNat < x.below + 27000000 then .next s else .next (s.thermal i.val (x.therm - 1))
/-- CLOCK_RELOCK_DONE (R33). -/
def execClockRelockDone (i : Fin 40) (s : State) : Host.Outcome State Fault Refusal :=
  .next { s with pkg.islands := s.pkg.islands.upd i.val (fun x => { x with relock := false }) }

/-! ## Links (R39 to R42) -/

/-- The lowest rate step of a link (R39, R46). -/
def lowestRate (k : Nat) : Nat := if k < 8 then 3 else if k < 16 then 4 else 6
/-- LINK_FLIT_RETRY (R39): the flit is replayed, and delivered once and in order; no field of LINKST counts it. -/
def execLinkFlitRetry (_k : Fin 17) (s : State) : Host.Outcome State Fault Refusal := .next s
/-- The eye monitor of a lane estimates its margin (R40, R42): LINKST shows the worst, the lane's histogram in the Soot record counts it. -/
def State.eyeMargin (s : State) (k lane margin : Nat) : State :=
  (s.setLink k { s.link k with margins := (s.link k).margins.put lane margin }).sootAdd 2 (k * 64 + lane) (margin / 8) 1 65535
/-- LINK_RATE_DROP (R40): the estimate of a lane brings the link one step down, with a retrain, and the drop is counted. -/
def execLinkRateDrop (k : Fin 17) (margin : EyeEstimate) (s : State) : Host.Outcome State Fault Refusal :=
  let l := s.link k.val
  if l.state ≠ 1 ∨ lowestRate k.val ≤ l.rate then .next s
  else
    let s := s.eyeMargin k.val margin.lane.val margin.margin.toNat
    let s := s.setLink k.val { s.link k.val with rate := l.rate + 1, state := 2, retry := min 255 (l.retry + 1) }
    .next (s.sootAdd 2 (k.val * 64) 32 1 (2 ^ 64 - 1))
/-- Flits of a link are corrected (R42); the monitor gives an estimate; the storage port's link trains at a rate step, or enters or leaves
L1, which it enters only while no NVMe queue is bound (R46). -/
def State.linkEvent (s : State) (k : Nat) (f : Link → Link) : State := s.setLink k (f (s.link k))
def State.corrected (s : State) (k n : Nat) : State := s.linkEvent k (fun l => { l with corr := min (2 ^ 32 - 1) (l.corr + n) })
def State.rootRate (s : State) (rate : Nat) : State :=
  if (s.link 16).state = 0 then s.linkEvent 16 (fun l => { l with rate := rate }) else s
def State.rootL1 (s : State) (on : Bool) : State :=
  if on && (s.queues.any (fun e => e.2.kind == 6) || (s.link 16).state != 1) then s else s.linkEvent 16 (fun l => { l with l1 := on })
/-- LINK_UPREQ (R40, R42): REFUSED to all but the operator. -/
def execLinkUpreq (who : Who) (k : Fin 17) (pass : Bool) (s : State) : Host.Outcome State Fault Refusal :=
  if who ≠ .operator then .next (s.answer who 1) else .next (s.upReq k.val pass)
/-- LINK_RETRAIN_DONE (R40). -/
def execLinkRetrainDone (k : Fin 17) (s : State) : Host.Outcome State Fault Refusal :=
  let l := s.link k.val
  .next (if l.state = 2 then s.setLink k.val { l with state := 1 } else s)
/-- Dies that reach the service die over links that are not down (R41, R42): links 0 to 3 join die d to it, link 4 + d joins die d to
die d + 1. -/
def State.reached (s : State) : Nat → List Nat
  | 0 => (upTo 4).filter (fun d => (s.link d).state != 3)
  | n + 1 =>
    let r := State.reached s n
    (upTo 4).filter (fun d => r.contains d || ((s.link (4 + d)).state != 3 && r.contains ((d + 1) % 4)) ||
      ((s.link (4 + (d + 3) % 4)).state != 3 && r.contains ((d + 3) % 4)))
/-- LINK_DOWN (R41): a link at its lowest step goes down; a die with no path left is withdrawn. What is in flight on a chip-to-chip link
is a post-copy pull, whose source no longer answers (R98): an entry of a network queue leaves in one act (log 3). -/
def execLinkDown (k : Fin 17) (s : State) : Host.Outcome State Fault Refusal :=
  let l := s.link k.val
  if l.state = 0 ∨ l.state = 3 ∨ l.rate ≠ lowestRate k.val then .next s
  else
    let s1 := s.setLink k.val { l with state := 3 }
    if 8 ≤ k.val then .next s1
    else .next ((upTo 4).foldl (fun s d => if (s.reached 4).contains d || s.pkg.gone.getLsbD d then s else s.withdrawDie d) s1)

/-! ## Requests of the device over the Rinnor ports (R43, R44) -/

def hostBase : Nat := 0x4000000000000
/-- The port of a host-memory address (R172). -/
def portOf (pa : Nat) : Nat := (pa - hostBase) / 2 ^ 47
def State.portReqs (s : State) (port : Nat) : List PortReqOut := s.pkg.ports.getD port []
def State.setPort (s : State) (port : Nat) (l : List PortReqOut) : State :=
  { s with pkg.ports := if l = [] then s.pkg.ports.erase port else s.pkg.ports.put port l }
/-- Physical addresses in host memory that a fill reads. -/
def Fill.hostPas (f : Fill) : List Nat :=
  match f.what with
  | .load _ els => els.filterMap (fun o => o.bind (fun pa => if inRegion 2 pa then some pa else none))
  | .atom pa .. => if inRegion 2 pa then [pa] else []
  | .line pa => [pa, pa + 32]
  | _ => []
/-- Blocks of 256 bytes whose responses a fill still needs. -/
def Fill.blocks (f : Fill) : List Nat := ((f.hostPas.map (· / 256)).eraseDups).filter (fun b => !f.got.contains b)
/-- Where a store or an atomic to host memory goes, when its page allows it (R86, R88). -/
def State.hostStore (s : State) (x : PStore) : Option Nat :=
  match s.xlate x.space none x.va with
  | .leaf pa e =>
    let carried : Bool := match x.atom with | some (op, f, n, _) => reaches e f op (8 * n) x.scope | none => true
    if e.kind = 2 ∧ e.owner = x.space ∧ e.w ∧ carried = true then some pa else none
  | _ => none
/-- Places in host memory that the elements of a collective which may land read, and have not (R271). -/
def State.collPas (s : State) (c : Coll) : List Nat :=
  if !c.started || !s.supplied c then []
  else
    let y := layoutOf c.record
    ((c.slices.flatMap (fun x => rangesAll x.left)).flatMap (fun u =>
      let found := s.findUnit c y u
      if found.all (fun p => match p with | .ok _ => true | _ => false) then (foundPas found).filter (inRegion 2) else [])).filter
        (fun pa => !c.got.contains (pa / 256) && !c.lost.contains (pa / 256))
/-- The request that covers the sectors of some places in one block of 256 bytes: its place and its bytes (R43). -/
def blockSpan (pas : List Nat) (b : Nat) : Nat × Nat :=
  match (pas.filter (fun pa => pa / 256 == b)).map (· / 32) with
  | [] => (256 * b, 256)
  | k :: r => let lo := r.foldl min k; (32 * lo, 32 * (r.foldl max k + 1 - lo))
/-- The request that a fill, a store, a collective or a launch sends next through a port: its place and its bytes, and whether it stores. -/
def State.nextRequest (s : State) (port id : Nat) : Option (Nat × Nat × Bool) :=
  let out := (s.portReqs port).filterMap (fun r => if r.id = id then some (r.pa / 256) else none)
  let read := fun (pas : List Nat) =>
    ((pas.map (· / 256)).eraseDups.find? (fun b => portOf (b * 256) == port && !out.contains b)).map (fun b =>
      let x := blockSpan pas b; (x.1, x.2, false))
  match s.fills.find id, s.stores.find id, s.colls.find id, s.launches.find id with
  | some f, _, _, _ => if s.fillBlocked id f then none else read (f.hostPas.filter (fun pa => !f.got.contains (pa / 256)))
  | none, some x, _, _ =>
    match s.hostStore x with
    | some pa =>
      if portOf pa ≠ port ∨ out ≠ [] ∨ s.storeBlocked id x ∨ s.earlierFill id x.tid [pa / 32] then none else some (pa, 32, true)
    | none => none
  | none, none, some c, _ => read (s.collPas c)
  | none, none, none, some l => read (s.winHost l)
  | none, none, none, none => none
/-- RINNOR_REQUEST_SEND (R43): a request goes out while fewer than 16,384 tags are out and fewer than 2 MiB of request bytes are
outstanding. -/
def execRinnorRequestSend (port : Fin 8) (id : Nat) (s : State) : Host.Outcome State Fault Refusal :=
  let l := s.portReqs port.val
  if 16384 ≤ l.length ∨ 2097152 ≤ (l.map (·.bytes)).sum ∨ s.pkg.stage = 0 then .next s
  else match s.nextRequest port.val id with
    | some (pa, bytes, st) =>
      let tag := ((upTo 16384).find? (fun t => l.all (fun r => r.tag != t))).getD 0
      .next (s.setPort port.val (l ++ [{ tag := tag, bytes := bytes, id := id, isStore := st, pa := pa, sent := (s.ref 0).toNat }]))
    | none => .next s
/-- The issuer of a request (R84): the core of its fill's or store's thread, or of its collective, or, beyond the cores, the Flue of its
launch. -/
def State.reqCore (s : State) (r : PortReqOut) : Option Nat :=
  match s.fills.find r.id, s.stores.find r.id, s.colls.find r.id, s.launches.find r.id with
  | some f, _, _, _ => some (coreOf (gidOf f.tid))
  | _, some x, _, _ => some (coreOf (gidOf x.tid))
  | _, _, some c, _ => some c.core
  | _, _, _, some l => some (256 + l.die)
  | _, _, _, _ => none
/-- Whether a request of the same issuer through the port was sent before one and covers one of its sectors (R44). -/
def State.sentBefore (s : State) (port : Nat) (r : PortReqOut) : Bool :=
  let span := fun (x : PortReqOut) => (x.pa / 32, (x.pa + max x.bytes 1 - 1) / 32)
  ((s.portReqs port).takeWhile (· != r)).any (fun x => s.reqCore x == s.reqCore r && (s.reqCore x).isSome &&
    (span x).1 ≤ (span r).2 && (span r).1 ≤ (span x).2)
/-- A request is over: its tag is free (R43). -/
def State.freeTag (s : State) (port tag : Nat) : State := s.setPort port ((s.portReqs port).filter (fun x => x.tag != tag))
/-- RINNOR_RESPONSE (R43, R44): the tag is free; a store takes effect, a load or atomic whose blocks have all come is filled, and elements
of a collective, or the windows of a launch, have their block. Requests of one issuer to one sector take effect in the order sent; a response after 1 ms is
discarded. -/
def execRinnorResponse (port : Fin 8) (tag : Nat) (s : State) : Host.Outcome State Fault Refusal :=
  match (s.portReqs port.val).find? (fun r => r.tag == tag) with
  | none => .next s
  | some r =>
    if r.sent + 2700000 ≤ (s.ref 0).toNat ∨ s.sentBefore port.val r then .next s
    else
      let s := s.freeTag port.val tag
      match s.stores.find r.id, s.fills.find r.id with
      | some x, _ =>
        let s := (s.endStore r.id).noteStore (s.group (gidOf x.tid)).launch x.va r.pa 2
        .next (match x.atom with
          | none => s.store r.pa x.data
          | some (op, flt, n, v) => (s.rmw Flt.atomF r.pa op flt n v 0).2)
      | none, some f =>
        let f := { f with got := insertAsc (r.pa / 256) f.got }
        let s := { s with fills := s.fills.put r.id f }
        .next (if f.blocks = [] then s.completeFill Flt.atomF r.id else s)
      | none, none => .next { s with colls := s.colls.upd r.id (fun c => { c with got := insertAsc (r.pa / 256) c.got })
                                     launches := s.launches.upd r.id (fun l => { l with got := insertAsc (r.pa / 256) l.got }) }
/-- RINNOR_TIMEOUT (R44): a request without a response for 1 ms is an uncorrectable error for its issuer, and its tag is free. For a
collective it is the error of the elements that need the block (R277); for a window, of the launch. -/
def execRinnorTimeout (port : Fin 8) (tag : Nat) (s : State) : Host.Outcome State Fault Refusal :=
  match (s.portReqs port.val).find? (fun r => r.tag == tag) with
  | none => .next s
  | some r =>
    if (s.ref 0).toNat < r.sent + 2700000 then .next s
    else
      let s := s.freeTag port.val tag
      match s.stores.find r.id, s.fills.find r.id with
      | some x, _ => .next ((s.endStore r.id).consumeAt x.tid)
      | none, some f => .next ({ s with fills := s.fills.erase r.id }.consumeAt f.tid)
      | none, none =>
        .next (if (s.colls.find r.id).isSome then
            { s with colls := s.colls.upd r.id (fun c => { c with lost := insertAsc (r.pa / 256) c.lost }) }
          else match s.launches.find r.id with
            | some l => if l.phase = .reading then s.consume r.id l.die else s
            | none => s)

/-! ## Requests that enter the device (R45, R47) -/

/-- The operation of an atomic request, as R394 numbers it. -/
def portAtom : PortOp → Nat
  | .add => 0
  | .swap => 8
  | _ => 9
def portAtomic : PortOp → Bool
  | .load | .store => false
  | _ => true
/-- What a request finds: the write waits for copy-aside, an error with its reason (0 translation miss, 1 permission), or a place. -/
inductive Inbound where
  | wait
  | error (reason : Nat)
  | at' (pa : Nat)
  /-- A flit run for the enqueue half of a launch queue's window (R101). -/
  | window (handle : Nat)
  deriving DecidableEq, Repr
/-- Translates a request in a space (R45, R47, R87, R88): it lies in one page, and atomics act at system scope. A request to a page of
another kind, such as host memory, which its owner and its permissions allow, is answered like one that they do not (log 41). -/
def State.inbound (s : State) (space : Nat) (r : PortReq) : Inbound :=
  if r.va % frameBytes + r.len > frameBytes ∨ vaMod ≤ r.va then .error 1
  else match s.xlate space none r.va with
    | .leaf pa e =>
      if e.owner ≠ space then .error 1
      else if e.kind = 4 then
        match s.windowQueue space r.va with
        | some (h, q) =>
          if r.op = .store ∧ e.w ∧ q.kind = 1 ∧ s.queueSound space q ∧ r.va / 2 ^ 15 % 2 = 0 ∧ r.va / 2 ^ 12 % 2 = 1 then .window h else .error 1
        | none => .error 1
      else if 1 < e.kind then .error 1
      else if r.op = .load then (if e.rd then .at' pa else .error 1)
      else if !e.w then .error 1
      else if portAtomic r.op && !reaches e false (portAtom r.op) (8 * 8) 6 then .error 1
      else if e.kind = 0 && s.needsAside space pa then .wait
      else .at' pa
    | _ => .error 0
/-- Answers a request at a port. -/
def State.portAnswer (s : State) (port from' : Nat) (error : Bool) (bytes : List Byte) : State :=
  { s with pkg.portOut := s.pkg.portOut ++ [{ port := port, from' := from', error := error, bytes := bytes }] }
/-- Performs a request at a place, whose translation sets REF (R89); a poisoned read is answered with an error (R296). -/
def State.portDo (s : State) (port from' pa : Nat) (r : PortReq) : State :=
  let s := s.touch pa
  match r.op with
  | .load => if s.poisoned pa r.len then s.portAnswer port from' true [] else s.portAnswer port from' false (s.load pa r.len)
  | .store => (s.store pa (fit r.len r.data)).portAnswer port from' false []
  | op =>
    if s.poisoned pa 8 then s.portAnswer port from' true []
    else
      let x := fieldLE r.data 0 8
      let new := fieldLE r.data 8 8
      let o := s.rmw Flt.atomF pa (portAtom op) false 8 x new
      o.2.portAnswer port from' false (toLE 8 o.1)
/-- Sizes that a Rinnor request may have (R43). -/
def rinnorOk (r : PortReq) : Bool :=
  if portAtomic r.op then r.len == 8 && r.va % 8 == 0
  else 32 ≤ r.len && r.len ≤ 256 && r.len % 32 == 0 && r.va % 32 == 0 && r.va % 256 + r.len ≤ 256
/-- The device operating system binds a host's client window to a space identifier and the port by which the host is attached (R45). -/
def State.bindWindow (s : State) (window space port : Nat) : State :=
  if s.pkg.stage = 0 ∨ 64 < space then s else { s with pkg.windows := s.pkg.windows.put window (space, port) }
/-- HOST_REQUEST (R45): translated in the space bound to the client window; an error response for a miss or a breach of permissions, or a
window that is bound to no space; never a trap. -/
def execHostRequest (window : Nat) (r : PortReq) (s : State) : Host.Outcome State Fault Refusal :=
  if s.pkg.stage = 0 then .next s
  else match s.pkg.windows.find window with
  | none => .next (s.portAnswer 0 window true [])
  | some (space, port) =>
    if !rinnorOk r then .next (s.portAnswer port window true [])
    else match s.inbound space r with
      | .wait => .next s
      | .error _ => .next (s.portAnswer port window true [])
      | .at' pa => .next (s.portDo port window pa r)
      | .window h => match s.append space h (fit r.len r.data) with
        | some s' => .next (s'.portAnswer port window false [])
        | none => .next s
/-- The space of the queue set bound to a function (R47). -/
def State.fnSpace (s : State) (fn : BitVec 16) : Option Nat :=
  (s.queues.find? (fun e => e.2.kind == 6 && e.2.fn == fn)).map (fun e => e.1 / 65536)
/-- STORAGE_INBOUND_REQUEST (R46, R47, R62): a refused request is an Unsupported Request with a notice of event 1; while the link retrains,
is down or in L1, none comes. The codes that R62 gives are 0 for a translation miss and 1 for a breach of permissions: that a function
without a bound queue set counts as a miss, and a request beyond the limits of R46 or across a block as a breach, is the model's choice
(log 72). -/
def execStorageInboundRequest (fn : BitVec 16) (r : PortReq) (s : State) : Host.Outcome State Fault Refusal :=
  let refuse := fun (s : State) (part reason : Nat) =>
    (s.eventNotice 1 1 part (fn.toNat + 65536 * reason)).portAnswer 8 fn.toNat true []
  if (s.link 16).state ≠ 1 ∨ (s.link 16).l1 then .next s
  else match s.fnSpace fn with
    | none => .next (refuse s 0xFF 0)
    | some p =>
      if (portAtomic r.op && (r.len != 8 || r.va % 8 != 0)) || r.len == 0 || 4096 < r.va % 4096 + r.len || (r.op == .store && 512 < r.len) then
        .next (refuse s p 1)
      else match s.inbound p r with
        | .wait => .next s
        | .error n => .next (refuse s p n)
        | .window _ => .next (refuse s p 1)
        | .at' pa => .next (s.portDo 8 fn.toNat pa r)

end Sys2Proof.Machine
end

