-- ==== Sys2Proof/Machine/Observe.lean ====
section
/-! DEFINITION. What the outside reads of the device: energy accounts and signed readings (R311 to R313), the Soot record (R310), LOSS
records (R305), sessions (R48, R59), attestation (R70, R71) and notices (R435). -/
namespace Sys2Proof.Machine

/-! ## Energy (R311 to R313) -/

/-- Rows of the table of R311: 0 core pipes, register file and Grate, 1 Firebox, 2 Stoker, scratchpad and bond, 3 DRAM, 4 links, 5 service
cores, 6 compute idle and leakage, 7 memory idle and leakage, 8 anything left over. The field of a reading where each counts (R313); what is
left over counts in the total alone (log 12). -/
def energyField (row : Nat) : Nat :=
  match row with | 0 | 1 => 1 | 2 => 2 | 3 => 3 | 4 => 4 | 5 => 6 | 6 | 7 => 5 | _ => 0
/-- By what a row is attributed in the interval under way (R311): spaces with their tags (`workKey`) and counts. Rows 0, 1, 2 and 6 are
counted on the island, the others over the package. -/
def State.workOf (s : State) (row island : Nat) : List ((Nat × Nat) × Nat) :=
  if row = 6 then
    s.groups.filterMap (fun e => if coreOf e.1 / 8 = island ∧ !e.2.isSpilt 1 then some ((e.2.space, e.2.launch + 2), e.2.width) else none)
  else if row = 7 then s.parts.filterMap (fun e => if e.1 < 64 ∧ e.2.live then some ((e.1, 0), e.2.guar) else none)
  else if row ≤ 5 then
    s.work.filterMap (fun e => if e.1 / 2 ^ 47 = row * 64 + island then some ((e.1 / 2 ^ 40 % 128, e.1 % 2 ^ 40), e.2) else none)
  else []
/-- One share of an interval's energy: its field and the total of the account take it, the attempt of its launch, and the replay field when
the attempt has been discarded (R311, R312). -/
def State.charge (s : State) (space tag field amount : Nat) : State :=
  let s := s.updAccount space (fun e =>
    let e := (if field = 0 then e else e.add field amount).add 0 amount
    if tag = 1 then e.add 7 amount else e)
  if tag < 2 then s else { s with launches := s.launches.upd (tag - 2) (fun l => { l with energy := l.energy + amount }) }
/-- ENERGY_INTERVAL (R311): the energy that Bellows has measured in an interval for a row of the table on an island is attributed to the
accounts in proportion to their counts of the same interval, in millionths of a µJ; what no account takes is left to the device account, so
that the accounts add up to it (log 12). -/
def execEnergyInterval (island row amount : Nat) (s : State) : Host.Outcome State Fault Refusal :=
  let island := if row ≤ 2 ∨ row = 6 then island else 0
  let ws := s.workOf row island
  let total := (ws.map (·.2)).sum
  let share := fun (n : Nat) => amount * n / total
  let s := ws.foldl (fun s e => s.charge e.1.1 e.1.2 (energyField row) (share e.2)) s
  let s := s.charge 0xFF 0 (energyField row) (amount - (ws.map (fun e => share e.2)).sum)
  .next { s with work := Tab.keep s.work (fun k _ => k / 2 ^ 47 != row * 64 + island) }
/-- The core whose slice of the scratchpads holds an address. -/
def coreOfScr (pa : Nat) : Nat := (pa - scratchBase) / 2 ^ 23
/-- Bytes that an access of a thread has moved, by where they lie (R311): bytes of the scratchpads, of DRAM, and 32-byte flits on a link
unless it is the scratchpad of its own core. -/
def State.moved (s : State) (tid : Nat) (pas : List (Nat × Nat)) : State :=
  let g := s.group (gidOf tid)
  let core := coreOf (gidOf tid)
  pas.foldl (fun s e =>
    let mine := inRegion 1 e.1 && coreOfScr e.1 == core
    let s := if inRegion 1 e.1 then s.addWork 2 (core / 8) g.space (g.launch + 2) e.2
      else if inRegion 0 e.1 then s.addWork 3 0 g.space (g.launch + 2) e.2 else s
    if mine then s else s.addWork 4 0 g.space (g.launch + 2) ((e.2 + 31) / 32)) s
/-- Where a fill moves its bytes: physical addresses and sizes. -/
def Fill.moves (f : Fill) : List (Nat × Nat) :=
  match f.what with
  | .load size els => els.filterMap (fun o => o.map (fun pa => (pa, size)))
  | .atom pa _ _ size _ _ => [(pa, size)]
  | .line pa => [(pa, 64)]
  | _ => []
/-- The kind of a matrix operation, for its array cycles. -/
def MatOp.kind : MatOp → Nat
  | .mloadw .. => 0
  | .mswap => 1
  | .mma .. => 2
  | .mhad .. => 3
  | .mzero .. => 4
  | .mdrain .. => 5
  | .mread .. => 6
/-- The work of an event that has happened (R311): bytes and flits of a load, a store, an atomic, an element that has landed or a packet,
array cycles of a matrix operation, and records that a service core has served. -/
def State.worked (s pre : State) (i : Instr) : State :=
  match i with
  | .loadFill id => match pre.fills.find id, s.fills.find id with
    | some f, none => s.moved f.tid f.moves
    | _, _ => s
  | .storeResolve id => match pre.stores.find id, s.stores.find id with
    | some x, none => match pre.xlate x.space none x.va with
      | .leaf pa _ => s.moved x.tid [(pa, x.data.length)]
      | _ => s
    | _, _ => s
  | .matrixOpExecute core _ => match pre.matq.getD core [] with
    | e :: r => if (s.matq.getD core []).length ≤ r.length then
        let g := pre.group (gidOf e.tid)
        s.addWork 1 (core / 8) g.space (g.launch + 2) (Config.arrayCycles e.op.kind)
      else s
    | [] => s
  | .elementLanding id _ => match pre.tloads.find id, pre.colls.find id with
    | some x, _ => if s.tloads.find id = some x then s else s.moved x.tid [(x.src, 32)]
    | none, some c => if s.colls.find id = some c then s else s.addWork 2 (c.core / 8) c.space (c.launch + 2) 32
    | none, none => s
  | .callServe space _ => if s.parts = pre.parts then s else s.addWork 5 0 space 0 1
  | .pageResolve space page _ => if pre.pagePending space page && !s.pagePending space page then s.addWork 5 0 space 0 1 else s
  | .drainDone p _ => if s.parts = pre.parts then s else s.addWork 5 0 p 0 1
  | .networkSend space handle _ => if s.queue space handle = pre.queue space handle then s else s.addWork 4 0 space 0 1
  | _ => s

/-- The digest of the previous reading of a subject; zero before the first. -/
def State.prevReading (s : State) (subject : Nat) : List Byte :=
  if subject = 0xFF then s.pkg.lastReading else (s.part subject).lastReading
/-- A signed reading of a subject (R313): its number, its fields, the digest of the one before it, and its signature; it is kept as
the subject's last. -/
def State.reading (s : State) (subject kind : Nat) (prev : List Byte) : List Byte × State :=
  let dev := subject == 0xFF
  let p := s.part subject
  let seq := s.pkg.readingSeq + 1
  let f := (s.account subject).fields
  let body :=
    toLE 4 0x4E45584B ++ toLE 2 1 ++ toLE 1 subject ++ toLE 1 kind ++ toLE 8 Config.serial ++ toLE 8 seq ++
    toLE 2 (if dev then 0 else p.epoch.toNat) ++ toLE 6 0 ++ (upTo 4).flatMap (fun d => toLE 8 (s.ref d).toNat) ++
    (upTo 8).flatMap (fun i => toLE 8 (f.getD i 0).toNat) ++ fit 64 prev ++ toLE 8 (if dev then 0 else p.resets.toNat) ++ toLE 56 0
  let bytes := body ++ fit 114 (Config.ed448 s.pkg.boots (Config.shake256 body 64)) ++ toLE 14 0
  let d := Config.shake256 bytes 64
  let s := { s with pkg.readingSeq := seq, pkg.readings := s.pkg.readings ++ [bytes] }
  (bytes, if dev then { s with pkg.lastReading := d } else s.setPart subject { s.part subject with lastReading := d })
/-- EREAD (R313, R314): BUSY during a reset, and for an account whose readings the other end of its migration gives: here after the closing
reading, and of an image that has not been opened here. -/
def execEread (who : Who) (subject : Nat) (s : State) : Host.Outcome State Fault Refusal :=
  if !(subject ≤ 64 || subject == 0xFF) then .next (s.answer who 2)
  else if who ≠ .auditor then .next (s.answer who 1)
  else if subject ≠ 0xFF ∧ ((s.part subject).sealed ∨ (s.part subject).migrating = 2 ∨ s.pkg.migIn.any (fun i => i.p == subject)) then
    .next (s.answer who 4)
  else
    let r := s.reading subject 0 (s.prevReading subject)
    .next (r.2.answer who 0 [] r.1)

/-! ## The Soot record (R310) -/

/-- The 64 bytes of a place of the Soot record: eight counters of 8 bytes in section 0, 32 bins of 2 bytes in section 2; the spec
does not lay out the others (log 30). -/
def State.sootBytes (s : State) (sect index : Nat) : List Byte :=
  let c := fun (k : Nat) => s.pkg.soot.getD (sootKey sect index k) 0
  match sect with
  | 0 => (upTo 8).flatMap (fun k => toLE 8 (c k))
  | 2 => (upTo 32).flatMap (fun k => toLE 2 (c k))
  | _ => fit 64 (Config.sootLayout sect ((upTo 64).map c))
/-- The highest index of a section. -/
def sootMax (sect : Nat) : Nat := match sect with | 0 => 4096 | 1 => 36 | 2 => 17 * 64 | 3 => 40 | _ => 32
/-- SOOTRD (R310): `R/—/C`, so the operator and the auditor read it. -/
def execSootrd (who : Who) (sect index : Nat) (s : State) : Host.Outcome State Fault Refusal :=
  if 4 < sect ∨ sootMax sect ≤ index then .next (s.answer who 2)
  else match who with
    | .owner _ => .next (s.answer who 1)
    | _ => .next (s.answer who 0 [] (s.sootBytes sect index))
/-- SOOT_UPDATE (R310): the store holds the counters up to now. -/
def execSootUpdate (s : State) : Host.Outcome State Fault Refusal :=
  let s := s.markSteps
  .next { s with pkg.soot := s.pkg.sootLive }
/-- TRACE_LOSS (R305). -/
def execTraceLoss (p : Nat) (s : State) : Host.Outcome State Fault Refusal :=
  .next (if (s.part p).trctl.getLsbD 63 then s.traceLossPost p else s)

/-! ## Sessions, attestation and notices (R48, R59, R70, R71, R435) -/

/-- The device challenges a window that has no session (R48): 64 bytes of its random source. -/
def State.challenge (s : State) (window : Nat) : State :=
  if s.pkg.stage = 0 ∨ (s.pkg.sessions.find window).isSome then s
  else { s with pkg.challenges := s.pkg.challenges.put window (fit 64 (Config.random s.pkg.draws 64)), pkg.draws := s.pkg.draws + 1 }
/-- The session key of an owner (R59): the first 32 bytes of a digest of the shared secret, both keys and the client's nonce. -/
def sessionKey (boots : Nat) (key nonce : List Byte) : List Byte :=
  fit 32 (Config.shake256 (Config.sharedSecret boots key ++ key ++ fit 56 (Config.x448Key boots) ++ nonce) 32)
/-- SESSION_OPEN (R48, R59): the answer to the challenge that stands for a window, and which it uses up; `sigOk` tells whether the
signature over the challenge verifies. A signature that fails opens nothing and has no reply; an owner gets the attestation report whose
nonce is the digest of its key and nonce. A window with a session keeps it. That an owner whose partition does not exist or is being
reset gets no reply either, and that the report counts as the first message sent, is the model's choice (log 73). -/
def execSessionOpen (who : Who) (window : Nat) (sigOk : Bool) (key nonce : List Byte) (s : State) : Host.Outcome State Fault Refusal :=
  let there := match who with | .owner p => p < 64 && (s.part p).live && !(s.part p).sealed | _ => true
  if s.pkg.stage = 0 ∨ (s.pkg.challenges.find window).isNone ∨ (s.pkg.sessions.find window).isSome then .next s
  else
  let s := { s with pkg.challenges := s.pkg.challenges.erase window }
  if !sigOk ∨ !there then .next s
  else
    let open' := fun (s : State) (key : List Byte) =>
      { s with pkg.sessions := s.pkg.sessions.put window { who := who, key := key } }
    match who with
    | .owner p =>
      let s := open' s (sessionKey s.pkg.boots key nonce)
      let r := s.attest p (Config.shake256 (key ++ nonce) 64)
      .next (r.2.answer who 0 [] r.1)
    | _ => .next ((open' s []).answer who 0)
/-- A session closes (R48). -/
def State.closeSession (s : State) (window : Nat) : State := { s with pkg.sessions := s.pkg.sessions.erase window }
/-- SESSION_MESSAGE (R59): a message is counted; one whose tag fails is dropped and its session closes. -/
def execSessionMessage (window : Nat) (tagOk : Bool) (s : State) : Host.Outcome State Fault Refusal :=
  match s.pkg.sessions.find window with
  | none => .next s
  | some x =>
    if tagOk then .next { s with pkg.sessions := s.pkg.sessions.put window { x with received := x.received + 1 } }
    else .next (s.closeSession window)
/-- Whether a session of an authority is open (R48). -/
def State.inSession (s : State) (who : Who) : Bool := s.pkg.sessions.any (fun e => e.2.who == who)
/-- Who may ask for a report on a subject (R71). -/
def mayAttest (who : Who) (subject : Nat) : Bool :=
  match who with
  | .operator => subject < 64 || subject == 0xFF
  | .owner p => subject == p || subject == 0xFF
  | .auditor => true
/-- ATTESTATION_REQUEST (R68, R70, R71). A report on the number of a partition that does not exist is given like any other (log 44). -/
def execAttestationRequest (who : Who) (subject : Nat) (nonce : List Byte) (s : State) : Host.Outcome State Fault Refusal :=
  if s.pkg.stage = 0 then .next s
  else if !(subject ≤ 64 || subject == 0xFF) ∨ nonce.length ≠ 64 then .next (s.answer who 2)
  else if !mayAttest who subject then .next (s.answer who 1)
  else if subject ≠ 0xFF ∧ (s.part subject).sealed then .next (s.answer who 4)
  else
    let r := s.attest subject nonce
    .next (r.2.answer who 0 [] r.1)
/-- The 32 bytes of a notice (R61). -/
def Notice.bytes (n : Notice) : List Byte :=
  toLE 1 n.cls ++ toLE 1 n.part ++ toLE 1 n.die ++ toLE 1 0 ++ toLE 2 n.count ++ toLE 2 n.handle ++ toLE 8 n.seq ++
  toLE 8 n.ref.toNat ++ toLE 2 n.event ++ toLE 6 n.detail
/-- NOTICES (R435): the oldest pending notices, and the number dropped since the last NOTICES. -/
def execNotices (who : Who) (count : Nat) (s : State) : Host.Outcome State Fault Refusal :=
  if count = 0 ∨ 64 < count then .next (s.answer who 2)
  else if who ≠ .operator then .next (s.answer who 1)
  else
    let out := s.pkg.notices.take count
    .next ({ s with pkg.notices := s.pkg.notices.drop count, pkg.noticesDropped := 0 }.answer who 0
      [BitVec.ofNat 64 s.pkg.noticesDropped] (out.flatMap Notice.bytes))

end Sys2Proof.Machine
end

