-- ==== Sys2Proof/Machine/Authority.lean ====
section
/-! DEFINITION. The sealed acts of an operator: creation of a partition (R57, R76, R181), RESET (R63, R64), and migration with its
post-copy pulls (R65, R66, R68, R96 to R98). -/
namespace Sys2Proof.Machine

/-! ## Creation -/

/-- PARTITION_CREATE (R55, R57, R65, R76, R116, R181, R301, R311): the partition exists, at epoch 0 with fresh keys, with generation 0, and
with every count at zero. Its shares and its guarantee were within the sums before it existed (log 70). -/
def execPartitionCreate (p : Nat) (s : State) : Host.Outcome State Fault Refusal :=
  if 64 ≤ p ∨ (s.part p).live ∨ s.pkg.stage = 0 then .next s
  else
    let s := s.freshKeys p
    let x := s.part p
    .next { s with
      parts := s.parts.put p { x with
        live := true, migpol := 0, epoch := 0, launchSeq := 0, resets := 0, sealed := false, resetters := 0,
        migrating := 0, pulls := [], copied := [], sentPages := 0, sentBytes := 0, frameWait := none, gens := [(0, { num := 0, state := 1 })], nextSerial := 1, reclaims := [], energy := ⟨[], []⟩,
        calls := [], traceDropped := 0, flowCall := 0, flowFault := 0 }
      ctrs := Tab.keep s.ctrs (fun k _ => k / 2 ^ 20 % 256 != p) }

/-! ## RESET (R63, R64) -/

/-- Groups of a partition. -/
def State.partGroups (s : State) (p : Nat) : List Nat := (s.groups.filter (fun e => e.2.space == p)).map (·.1)
/-- Its launches. -/
def State.partLaunches (s : State) (p : Nat) : Tab Launch := s.launches.filter (fun e => e.2.space == p)
/-- Its scratchpad frames. -/
def State.partScr (s : State) (p : Nat) : List Nat := (s.own.filter (fun e => dramFrames ≤ e.1 && e.2.owner == p)).map (·.1)
/-- The units of some scratchpad frames are empty (R127). -/
def State.emptyFrames (s : State) (fs : List Nat) : State :=
  { s with fullUnits := s.fullUnits.filter (fun u => match frameOf (u * 256) with | some f => !fs.contains f | none => true) }
/-- Cancels every copy of a partition (R280). -/
def State.cancelPart (s : State) (p : Nat) : State := { s with colls := Tab.keep s.colls (fun _ c => c.space != p) }
/-- Whether a frame of a partition is stale under the tag that the next epoch would have (R57, R63 step 3). -/
def State.epochConflict (s : State) (p : Nat) : Bool :=
  let x := s.part p
  s.own.any (fun e => e.2.owner == p && s.stale e.1 && e.2.epoch == (x.epoch.toNat + 1) % 16)
/-- Steps 1 and 2: the partition is sealed, a migration of it is abandoned, its groups are killed and its copies cancelled. -/
def State.sealReset (s : State) (p : Nat) : State :=
  let m := (s.part p).migrating
  let s := if m = 1 ∨ m = 4 then s.answer .operator 4 else s
  let s := s.updPart p (fun x => { x with sealed := true, resetters := x.resetters + 1, migrating := 0, copied := [], frameWait := none })
  let s := { s with pkg.migOut := s.pkg.migOut.filter (fun i => i.p != p) }
  let fs := s.partScr p
  let s := (s.cancelPart p).emptyFrames fs
  let s := (s.partGroups p).foldl (fun s g => s.killGroup g 0x22) s
  { s with searches := Tab.keep s.searches (fun _ q => q.space != p) }
/-- A queue after a reset (R64, R108). -/
def Queue.emptied (q : Queue) : Queue :=
  { q with head := q.tail, nextClaim := q.tail, released := [], ovf := false, drop := false, parents := [], waiting := [] }
/-- Steps 3 to 6: the closing reading, fresh keys under the next epoch, what is zeroed and discarded, the completion records, and the
notice. A launch had a group placed if one is placed, or was before a rollback or in an earlier signature run. -/
def State.finishReset (s : State) (p : Nat) : State :=
  let s := (s.reading p 1 (s.prevReading p)).2
  let s := (s.part p).gens.foldl (fun s e => s.freeAsides p e.1) s
  let s := { s with seals := Tab.keep s.seals (fun f _ => (s.frame f).owner != p) }
  let n := (s.part p).resetters
  let s := (s.freshKeys p).updPart p (fun x =>
    { x with epoch := x.epoch + 1, resets := x.resets + 1, reclaims := [], calls := [], pulls := [],
             gens := [(x.nextSerial, { num := 0, state := 1 })], nextSerial := x.nextSerial + 1 })
  let s := { s with pageWaits := Tab.keep s.pageWaits (fun k _ => k / 2 ^ 40 != p)
                    pageMore := s.pageMore.filter (fun e => e.1 / 2 ^ 40 != p)
                    searches := Tab.keep s.searches (fun _ q => q.space != p)
                    pages := s.pages.map (fun (e : Nat × PageEnt) =>
                      if e.1 / 2 ^ 40 == p && !e.2.valid && (e.2.state == 2 || e.2.state == 3) then (e.1, { e.2 with state := 4 }) else e)
                    pkg.sessions := Tab.keep s.pkg.sessions (fun _ x => x.who != Who.owner p) }
  let s := (s.partScr p).foldl (fun s f => s.zeroFrame f) s
  let s := (s.queues.filter (fun e => e.1 / 65536 == p)).foldl (fun s e => s.writeQueue p (e.1 % 65536) e.2.emptied) s
  let s := (s.partLaunches p).foldl (fun s e =>
    if e.2.phase = .ended then s
    else if e.2.next ≠ 0 ∨ e.2.attempts ≠ 0 ∨ 1 < e.2.sigRun then s.complete e.1 1 0x22
    else s.complete e.1 3 0) s
  let s := s.eventNotice 4 5 p 0
  let s := (upTo n).foldl (fun s _ => s.answer .operator 0) s
  s.updPart p (fun x => { x with sealed := false, resetters := 0 })
/-- A reset under way goes on once the scrubber has done its part (R57). -/
def State.dueResets (s : State) : State :=
  (s.parts.filter (fun e => e.2.sealed)).foldl (fun s e => if s.epochConflict e.1 then s else s.finishReset e.1) s
/-- RESET (R49, R63, R68): one that finds a reset under way joins it. That a RESET, or a MIGRATE, of a partition which does not exist
completes with GONE is the model's choice (log 44). -/
def execResetPart (who : Who) (p : Nat) (s : State) : Host.Outcome State Fault Refusal :=
  if 64 ≤ p then .next (s.answer who 2)
  else if who ≠ .operator then .next (s.answer who 1)
  else if !(s.part p).live then .next (s.answer who 5)
  else if (s.part p).sealed then .next (s.updPart p (fun x => { x with resetters := x.resetters + 1 }))
  else
    let s := s.sealReset p
    .next (if s.epochConflict p then s else s.finishReset p)

/-! ## Migration at the source (R65, R66) -/

/-- MIGRATE (R65, R66, R110): `chainOk` and `digestsEqual` tell what the destination's report shows. -/
def execMigrate (who : Who) (p : Nat) (chainOk digestsEqual : Bool) (s : State) : Host.Outcome State Fault Refusal :=
  let x := s.part p
  let allowed := match x.migpol with
    | 1 => chainOk && digestsEqual
    | 2 => chainOk
    | _ => false
  if 64 ≤ p then .next (s.answer who 2)
  else if who ≠ .operator then .next (s.answer who 1)
  else if !x.live then .next (s.answer who 5)
  else if x.sealed ∨ x.migrating ≠ 0 then .next (s.answer who 4)
  else if (s.kindQueue p 6).isSome ∨ !allowed then .next (s.answer who 1)
  else if !s.netUp then .next (s.answer who 5)
  else .next { s.updPart p (fun x => { x with migrating := 1, migNonce := s.pkg.draws, sentPages := 0, sentBytes := 0 }) with
    pkg.draws := s.pkg.draws + 1 }

/-- The content of a page that may travel while its partition runs: a DRAM page on a frame that is not fixed. -/
def State.movingPage (s : State) (p page : Nat) : Option Image :=
  match s.walk p page with
  | some (b, e) => if e.valid && e.kind == 0 && !e.fix then some (s.imageOf (e.addr + (page - b) * frameBytes)) else none
  | none => none
/-- Pre-copy (R60, R66, R74): a page travels while its partition runs, and again when its content is no longer what was sent. -/
def State.precopy (s : State) (p page : Nat) : State :=
  let x := s.part p
  match s.movingPage p page with
  | some i =>
    if !(x.migrating == 1 || x.migrating == 4) || !s.netUp || !s.pullServed || x.copied.find page == some i then s
    else s.updPart p (fun x =>
      { x with copied := x.copied.put page i, sentPages := x.sentPages + 1, sentBytes := x.sentBytes + frameBytes })
  | none => s
/-- The operator's view of a migration: progress in pages and bytes (R60). The form of the answer is the model's choice (log 75). -/
def State.progress (s : State) (p : Nat) : State :=
  if 64 ≤ p then s.answer .operator 2
  else if (s.part p).sealed then s.answer .operator 4
  else s.answer .operator 0 [BitVec.ofNat 64 (s.part p).sentPages, BitVec.ofNat 64 (s.part p).sentBytes]

/-- What the freeze waits for (R66, R82, R227, R280, R402, R422): every group halted, and nothing of the partition in flight but what
travels. -/
def State.freezeReady (s : State) (p : Nat) : Bool :=
  let mine := fun (t : Nat) => s.spaceOf t == p
  (s.partGroups p).all (fun g => (s.group g).halted) &&
  s.fills.all (fun e => !mine e.2.tid) && s.tloads.all (fun e => !mine e.2.tid) &&
  s.matq.all (fun e => e.2.all (fun q => !mine q.tid)) && s.stops.all (fun q => (s.group q.gid).space != p) &&
  s.stores.all (fun e => e.2.space != p || e.2.held) && s.searches.all (fun e => e.2.space != p) &&
  (s.part p).calls.all (fun e => !e.2.taken || e.2.reply.isSome) && (s.part p).reclaims.all (fun e => !e.2.running) &&
  s.colls.all (fun e => e.2.space != p || !e.2.started || e.2.slices.all (fun x => x.left == [])) && (s.kindQueue p 6).isNone
/-- Every unit of a group that has a save area is spilt, and its header written anew (R66, R168). -/
def State.spillGroup (s : State) (gid : Nat) : State :=
  if (s.group gid).saveCount = 0 then s
  else
    let s := (s.units gid).foldl (fun s u => if (s.group gid).isSpilt u then s else s.claimUnit gid u) s
    s.wrBytes (s.saveBase gid + 96) ((s.saveHeader gid (s.group gid).spilt.toNat).drop 96)
/-- Aside copies and kept frames of the generations travel as pages (R190): they become copies in the lower tier. -/
def State.drainAsides (s : State) (p : Nat) : State :=
  (s.part p).gens.foldl (fun s e =>
    ((e.2.asides ++ e.2.held).foldl (fun s x => s.drainPage p e.1 x.1 (s.imageOf (frameAddr x.2))) s).freeAsides p e.1) s
/-- Whether a page has travelled as it is now (R66). -/
def State.hasCopied (s : State) (p page : Nat) : Bool :=
  match (s.part p).copied.find page with | some i => s.movingPage p page == some i | none => false
/-- Pages as the destination gets them: fixed leaves and those of other kinds as they are, and of the other DRAM pages those that have
travelled as leaves of 64 KiB, the rest at STATE 3. -/
def State.sentPages (s : State) (p : Nat) : Tab PageEnt :=
  (s.pages.filter (fun e => e.1 / 2 ^ 40 == p)).foldl (fun (t : Tab PageEnt) e =>
    if e.2.valid && e.2.kind == 0 && !e.2.fix then
      (upTo (sizePages e.2.size)).foldl (fun (t : Tab PageEnt) i =>
        t.put (e.1 + i)
          (if s.hasCopied p (e.1 % 2 ^ 40 + i) then { e.2 with size := 0, addr := 0 } else { e.2 with valid := false, size := 0, state := 3, addr := 0 })) t
    else t.put e.1 e.2) []
/-- The key under which a frame of a save area travels. -/
def saveKey (gid i : Nat) : Nat := 2 ^ 40 + gid * 4096 + i
/-- Content that has travelled by the end of the freeze: pages sent before, fixed pages, scratchpad frames by page, and save areas. -/
def State.sentData (s : State) (p : Nat) : Tab Image :=
  let t := (s.pages.filter (fun e => e.1 / 2 ^ 40 == p && e.2.valid && (e.2.kind == 1 || (e.2.kind == 0 && e.2.fix)))).foldl
    (fun (t : Tab Image) e => (upTo (sizePages e.2.size)).foldl (fun (t : Tab Image) i =>
      t.put (e.1 % 2 ^ 40 + i) (s.imageOf (e.2.addr + i * frameBytes))) t)
    ((s.part p).copied.filter (fun e => s.hasCopied p e.1))
  (s.partGroups p).foldl (fun (t : Tab Image) g => (upTo (s.group g).saveCount).foldl (fun (t : Tab Image) i =>
    t.put (saveKey g i) (s.imageOf (frameAddr ((s.group g).saveFrame + i)))) t) t
/-- What travels; the data key wrapped for the destination under an ephemeral key pair, and a signed manifest (R66 step 4) with pages, epoch
and closing reading (R66, R82, R97, R168, R227, R280, R402, R422, R432). -/
def State.imageFor (s : State) (p : Nat) : MigImage :=
  let s := s.drainAsides p
  let gs := s.partGroups p
  let inG := fun (g : Nat) => gs.contains g
  let ids := (s.partLaunches p).map (·.1)
  let key := s.pkg.draws
  let dest := Config.peerKey (s.part p).migNonce
  let nonce := fit 64 (Config.random (s.part p).migNonce 64)
  let eph := fit 56 (Config.ephemeralKey key)
  let wrapped := Config.wrapKey (fit 32 (Config.shake256 (Config.ephemeralSecret key dest ++ eph ++ dest ++ nonce) 32)) (s.part p).key
  let manifest := (s.sentPages p).flatMap (fun e => toLE 5 (e.1 % 2 ^ 40)) ++ toLE 2 (s.part p).epoch.toNat ++ s.pkg.readings.getLastD []
  let slots := ((s.pages.filter (fun e => e.1 / 2 ^ 40 == p && !e.2.valid && e.2.state == 2)).map (·.2.addr)) ++
    (s.part p).gens.flatMap (fun e => e.2.drained.map (·.2))
  let ranges := gs.map (fun g => s.allocRange g)
  let scr := s.partScr p
  { p := p, part := { s.part p with key := 0, bond := 0 }, groups := Tab.keep s.groups (fun _ g => g.space == p), threads := Tab.keep s.threads (fun t _ => inG (gidOf t)),
    launches := s.partLaunches p, vreg := Tab.keep s.vreg (fun k _ => inG (k / 16384)), preg := Tab.keep s.preg (fun k _ => inG (k / 1024)),
    ureg := Tab.keep s.ureg (fun k _ => inG (k / 64)), treg := Tab.keep s.treg (fun k _ => inG (k / 16)),
    pinreg := Tab.keep s.pinreg (fun k _ => inG (k / 8)), accs := Tab.keep s.accs (fun k _ => inG (k / 8)),
    planesA := Tab.keep s.planesA (fun k _ => inG k), planesS := Tab.keep s.planesS (fun k _ => inG k),
    opbuf := Tab.keep s.opbuf (fun k _ => gs.any (fun g =>
      let lo := coreOf g * 2 ^ 21 + (s.group g).opBase
      !(s.group g).spilt.getLsbD 6 && lo ≤ k && k < lo + 1024 * (s.recOf (s.group g)).opbuf)),
    pages := s.sentPages p, data := s.sentData p, slots := Tab.keep s.slots (fun k _ => slots.contains k),
    queues := Tab.keep s.queues (fun k _ => k / 65536 == p), colls := Tab.keep s.colls (fun _ c => c.space == p),
    stores := Tab.keep s.stores (fun _ x => x.space == p), pinDir := Tab.keep s.pinDir (fun k _ => inG (k / 8)),
    fullUnits := s.fullUnits.filter (fun u => ranges.any (fun r => r.1 ≤ u * 256 && u * 256 < r.2) ||
      (match frameOf (u * 256) with | some f => scr.contains f | none => false)),
    scratch := scr, grants := (s.grants.filter (fun e => e.2 == p)).map (·.1),
    waits := Tab.keep s.pageWaits (fun k _ => k / 2 ^ 40 == p), more := s.pageMore.filter (fun e => e.1 / 2 ^ 40 == p), bars := Tab.keep s.bars (fun k _ => ids.contains (k / 2 ^ 83)),
    ctrs := Tab.keep s.ctrs (fun k _ => k / 2 ^ 20 % 256 == p), lcb := Tab.keep s.lcb (fun k _ => k / 32 == p), stamp := s.stamp,
    nonce := nonce, ephemeral := eph, wrapped := wrapped, manifest := manifest,
    signature := fit 114 (Config.ed448 s.pkg.boots (Config.shake256 (wrapped ++ eph ++ manifest) 64)) }
/-- MIGRATION_FREEZE (R66, R68): the groups halt as at pre-emption; once nothing that the freeze waits for is left, every unit is
spilt, the account gets its closing reading, and the state is sent. The source keeps it, frozen, until the last page has been pulled or
the destination reports failure (log 35). -/
def execMigrationFreeze (p : Nat) (s : State) : Host.Outcome State Fault Refusal :=
  let m := (s.part p).migrating
  if m ≠ 1 ∧ m ≠ 4 then .next s
  else
    let s := if m = 4 then s else
      ((s.partGroups p).foldl (fun s g => s.dueInst (s.group g).launch (s.group g).inst) s).updPart p (fun x => { x with migrating := 4 })
    let s := s.settleHalts
    if !s.freezeReady p ∨ !s.pullServed then .next s
    else
      let s := (s.partGroups p).foldl (fun s g => s.spillGroup g) s
      let s := (s.reading p 2 (s.prevReading p)).2
      let i := s.imageFor p
      let more := i.data.length - ((s.part p).copied.filter (fun e => s.hasCopied p e.1)).length
      let s := { s with pkg.migOut := s.pkg.migOut ++ [i], pkg.draws := s.pkg.draws + 1 }
      let s := s.updPart p (fun x => { x with sentPages := x.sentPages + more, sentBytes := x.sentBytes + more * frameBytes, copied := [] })
      .next ((s.updPart p (fun x => { x with migrating := 2 })).answer .operator 0)
/-- A partition leaves the device: everything it holds goes, its keys with it. -/
def State.dropPart (s : State) (p : Nat) : State :=
  let s := s.cancelPart p
  let s := (s.partGroups p).foldl (fun s g => s.removeGroup g) s
  let s := (s.partLaunches p).foldl (fun s e => s.eraseLaunch e.1) s
  let s := { s with grants := Tab.keep s.grants (fun _ q => q != p), queues := Tab.keep s.queues (fun k _ => k / 65536 != p)
                    searches := Tab.keep s.searches (fun _ q => q.space != p), pages := Tab.keep s.pages (fun k _ => k / 2 ^ 40 != p)
                    pageWaits := Tab.keep s.pageWaits (fun k _ => k / 2 ^ 40 != p)
                    pageMore := s.pageMore.filter (fun e => e.1 / 2 ^ 40 != p)
                    pkg.sessions := Tab.keep s.pkg.sessions (fun _ x => x.who != Who.owner p)
                    seals := Tab.keep s.seals (fun f _ => (s.frame f).owner != p), ctrs := Tab.keep s.ctrs (fun k _ => k / 2 ^ 20 % 256 != p) }
  let s := s.dropTables p
  let s := (s.own.filter (fun e => e.2.owner == p)).foldl (fun s e => s.setFrame e.1 {}) s
  s.setPart p { lastReading := (s.part p).lastReading }
/-- MIGRATION_FAILURE_REPORT (R66 step 6): the source destroys its keys at once, and with them what they protect. -/
def execMigrationFailureReport (p : Nat) (s : State) : Host.Outcome State Fault Refusal :=
  .next (if (s.part p).migrating = 2 then s.dropPart p else s)
/-- The last page has been pulled (R66 step 6): the source destroys its keys, and with them what they protect. -/
def State.lastPulled (s : State) (p : Nat) : State := if (s.part p).migrating = 2 then s.dropPart p else s
/-- The source answers a pull, which counts in the operator's progress (R60, R97). -/
def State.pulled (s : State) (p : Nat) : State :=
  if (s.part p).migrating = 2 then
    s.updPart p (fun x => { x with sentPages := x.sentPages + 1, sentBytes := x.sentBytes + frameBytes })
  else s

/-! ## Migration at the destination (R66, R97) -/

/-- Entries of one table put over another. -/
def Tab.merge {α : Type} (t u : Tab α) : Tab α := u.foldl (fun (t : Tab α) e => t.put e.1 e.2) t
/-- Keys and values of a table changed, in key order. -/
def Tab.shift {α : Type} (n : Nat) (f : α → α) (t : Tab α) : Tab α := t.map (fun e => (e.1 + n, f e.2))

/-- A table with other keys, which differ where the old ones do. -/
def Tab.rekey {α : Type} (f : Nat → Nat) (t : Tab α) : Tab α := t.foldl (fun (u : Tab α) e => u.put (f e.1) e.2) []
/-- The core of the destination for a core of the source (R136, log 45), and the group slot there; lanes and slots stay. -/
def MigImage.core (i : MigImage) (c : Nat) : Nat := i.cores.getD c c
def MigImage.gid (i : MigImage) (g : Nat) : Nat := i.core (coreOf g) * 512 + g % 512
/-- A key of a table that has `n` places for each group slot. -/
def MigImage.per (i : MigImage) (n k : Nat) : Nat := i.gid (k / n) * n + k % n
/-- A flat scratchpad address: what lies in an allocation goes to the slice of the new core, and frames that the partition holds
otherwise keep their addresses (R173, R176). -/
def MigImage.va (i : MigImage) (va : Nat) : Nat :=
  if isFlat va && !i.scratch.contains (dramFrames + (va - flatBase) / frameBytes) then
    flatBase + i.core ((va - flatBase) / 2 ^ 23) * 2 ^ 23 + (va - flatBase) % 2 ^ 23
  else va
def MigImage.pa (i : MigImage) (pa : Nat) : Nat := if scratchBase ≤ pa then flatPa (i.va (flatBase + (pa - scratchBase))) else pa
/-- What a thread waits for, on its new core; every register travels full. -/
def Wait.moved (i : MigImage) : Wait → Wait
  | .regs _ => .regs []
  | .converge _ => .converge []
  | .phase pa n => .phase (i.pa pa) n
  | .sector va => .sector (i.va va)
  | .tile u full => .tile (i.pa (u * 256) / 256) full
  | .room cw r => .room (i.va cw) r
  | .released ts => .released (ts.map (i.per 64))
  | .snap ts => .snap (ts.map (i.per 64))
  | w => w
/-- The cores of the destination keep apart what was on two cores, and together what an instance needs on one cluster or die
(R119). -/
def MigImage.movesWhole (i : MigImage) : Bool :=
  i.cores.all (fun e => e.2 < 256) &&
  i.groups.all (fun x => i.groups.all (fun y =>
    let a := coreOf x.1
    let b := coreOf y.1
    let bound := fun (d : Nat) => (i.launches.find x.2.launch).any (fun l => l.record.domains.contains d)
    (a == b || i.core a != i.core b) &&
    (x.2.launch != y.2.launch || x.2.inst != y.2.inst ||
      ((!bound 1 || a / 8 != b / 8 || i.core a / 8 == i.core b / 8) && (!bound 2 || i.core a / 64 == i.core b / 64)))))
/-- An image as it stands on the cores that the destination gives its groups (R60, R136). -/
def MigImage.moved (i : MigImage) : MigImage :=
  if i.cores = [] then i
  else
    let park := fun (x : Park) => { x with va := i.va x.va }
    { i with
      part := { i.part with calls := Tab.mapVals i.part.calls (fun c => { c with gid := i.gid c.gid, tid := i.per 64 c.tid }) }
      groups := Tab.rekey i.gid (Tab.mapVals i.groups (fun g => { g with scrBase := BitVec.ofNat 56 (i.va g.scrBase.toNat) }))
      threads := Tab.rekey (i.per 64) (Tab.mapVals i.threads (fun t =>
        { t with st := match t.st with | .waiting w => .waiting (w.moved i) | x => x }))
      vreg := Tab.rekey (i.per 16384) i.vreg, preg := Tab.rekey (i.per 1024) i.preg, ureg := Tab.rekey (i.per 64) i.ureg, treg := Tab.rekey (i.per 16) i.treg
      pinreg := Tab.rekey (i.per 8) i.pinreg, pinDir := Tab.rekey (i.per 8) i.pinDir, accs := Tab.rekey (i.per 8) i.accs
      planesA := Tab.rekey i.gid i.planesA, planesS := Tab.rekey i.gid i.planesS
      opbuf := Tab.rekey (fun k => i.core (k / 2 ^ 21) * 2 ^ 21 + k % 2 ^ 21) i.opbuf
      data := Tab.rekey (fun k => if k < 2 ^ 40 then k else 2 ^ 40 + i.per 4096 (k - 2 ^ 40)) i.data
      queues := Tab.mapVals i.queues (fun q => { q with waiting := q.waiting.map (fun e => (i.per 64 e.1, e.2)) })
      colls := Tab.mapVals i.colls (fun c =>
        { c with core := i.core c.core, handle := i.va c.handle, parked := c.parked.map park, report := c.report.map park
                 tile := c.tile.map (fun e => (i.gid e.1, e.2))
                 slices := c.slices.map (fun x => { x with gid := i.gid x.gid, tid := i.per 64 x.tid, barrier := x.barrier.map i.va }) })
      stores := Tab.mapVals i.stores (fun x => { x with tid := i.per 64 x.tid })
      fullUnits := i.fullUnits.foldl (fun l u => insertAsc (i.pa (u * 256) / 256) l) [] }
/-- An image with the ids of launches, copies and stores raised by `b` and the slots of the lower tier by `c`, so that they are new
here; ages start anew with the count of this die (log 36). Reports of copies will be delivered again (R280). -/
def MigImage.rebase (i : MigImage) (b c : Nat) (now : Nat → Nat) : MigImage :=
  { i with
    part := { i.part with gens := Tab.mapVals i.part.gens (fun g =>
      { g with launch := if g.state = 5 then g.launch + b else g.launch, drained := Tab.mapVals g.drained (· + c) }) }
    groups := Tab.mapVals i.groups (fun g => { g with launch := g.launch + b, haltAt := g.haltAt + b })
    threads := Tab.mapVals i.threads (fun t =>
      { t with since := t.since + b, lines := [], reports := t.reports.filter (fun r => r.cause != .copyFault),
               st := match t.st with
                 | .waiting .report => .ready
                 | .waiting (.drain (some n)) => .waiting (.drain (some (n + b)))
                 | x => x })
    launches := Tab.shift b (fun l =>
      { l with parent := l.parent.map (· + b), since := now l.die, unfit := none, blocking := false,
               phase := match l.phase with | .held q => .held (q + b) | x => x }) i.launches
    colls := Tab.shift b (fun x => { x with launch := x.launch + b, reportTo := none, slices := x.slices.map (fun y => { y with at' := y.at' + b }) }) i.colls
    stores := Tab.shift b id i.stores
    bars := Tab.shift (b * 8 * 2 ^ 80) id i.bars
    queues := Tab.mapVals i.queues (fun q => { q with parents := Tab.mapVals q.parents (· + b) })
    slots := Tab.shift c id i.slots
    pages := Tab.mapVals i.pages (fun e => if !e.valid && e.state == 2 then { e with addr := e.addr + c } else e) }
/-- Takes fixed frames for the fixed leaves of an image and fills them; `none` while they are not free. -/
def State.placeFixed (s : State) (i : MigImage) : Option State :=
  (i.pages.filter (fun e => e.2.valid && e.2.kind == 0 && e.2.fix)).foldl (fun (a : Option State) e => a.bind (fun s =>
    let n := sizePages e.2.size
    if !s.mayTake i.p n true then none
    else (s.freeRun n (Nat.log2 n)).map (fun f =>
      let s := s.takeRun i.p f n true
      let s := (upTo n).foldl (fun s k =>
        let s := s.putImage (frameAddr (f + k)) (i.data.getD (e.1 % 2 ^ 40 + k) { bytes := [], poison := [] })
        s.setFrame (f + k) { s.frame (f + k) with maps := 1 }) s
      s.setPage i.p (e.1 % 2 ^ 40) { e.2 with addr := frameAddr f }))) (some s)
/-- Pages that travelled while the partition ran take frames of their own, and one that finds none stays to be pulled. -/
def State.placeCopied (s : State) (i : MigImage) : State :=
  (i.pages.filter (fun e => e.2.valid && e.2.kind == 0 && !e.2.fix)).foldl (fun s e =>
    let page := e.1 % 2 ^ 40
    match (if s.mayTake i.p 1 false then s.freeRun 1 0 else none) with
    | none => s.setPage i.p page { e.2 with valid := false, state := 3, addr := 0 }
    | some f =>
      let s := (s.takeFrame i.p f false).putImage (frameAddr f) (i.data.getD page { bytes := [], poison := [] })
      (s.setFrame f { s.frame f with maps := 1 }).setPage i.p page (e.2.leafAt f)) s
/-- Takes the frames of the save areas. -/
def State.placeSaves (s : State) (i : MigImage) : Option State :=
  (i.groups.filter (fun e => e.2.saveCount != 0)).foldl (fun (a : Option State) e => a.bind (fun s =>
    let n := e.2.saveCount
    if !s.mayTake i.p n true then none
    else (s.freeRun n 0).map (fun f =>
      let s := s.takeRun i.p f n true
      ((upTo n).foldl (fun s k => s.putImage (frameAddr (f + k)) (i.data.getD (saveKey e.1 k) { bytes := [], poison := [] })) s).updGroup e.1
        (fun g => { g with saveFrame := f })))) (some s)
/-- The scratchpad frames of an image, at their own places. -/
def State.placeScratch (s : State) (i : MigImage) : State :=
  i.scratch.foldl (fun s f =>
    let s := s.takeFrame i.p f true
    let s := s.setFrame f { s.frame f with maps := 1 }
    s.putImage (frameAddr f) (i.data.getD ((flatBase + (frameAddr f - scratchBase)) / frameBytes) { bytes := [], poison := [] })) s
/-- The data key of an image, unwrapped with the X448 key of the device of a boot count (R66 step 5). -/
def MigImage.unwrapped (i : MigImage) (boots : Nat) : Nat :=
  Config.unwrapKey (fit 32 (Config.shake256 (Config.sharedSecret boots i.ephemeral ++ i.ephemeral ++ fit 56 (Config.x448Key boots) ++ i.nonce) 32))
    i.wrapped
/-- Puts what an image holds into the tables: the data key comes unwrapped, and the bond key is fresh (R66). Counters and the account go on
from where they stood (R301). -/
def State.install (s : State) (i : MigImage) : State :=
  let s := i.pages.foldl (fun s e => s.setPage i.p (e.1 % 2 ^ 40) e.2) s
  { s with
    parts := s.parts.put i.p { i.part with live := true, key := i.unwrapped s.pkg.boots, bond := s.pkg.draws, copied := [], frameWait := none,
                                           sentPages := 0, sentBytes := 0, migrating := 0 }
    pkg.draws := s.pkg.draws + 1
    groups := Tab.merge s.groups i.groups, threads := Tab.merge s.threads i.threads, launches := Tab.merge s.launches i.launches
    vreg := Tab.merge s.vreg i.vreg, preg := Tab.merge s.preg i.preg, ureg := Tab.merge s.ureg i.ureg, treg := Tab.merge s.treg i.treg
    pinreg := Tab.merge s.pinreg i.pinreg, accs := Tab.merge s.accs i.accs, planesA := Tab.merge s.planesA i.planesA
    planesS := Tab.merge s.planesS i.planesS, opbuf := Tab.merge s.opbuf i.opbuf
    slots := Tab.merge s.slots i.slots, queues := Tab.merge s.queues i.queues, colls := Tab.merge s.colls i.colls
    stores := Tab.merge s.stores i.stores, pinDir := Tab.merge s.pinDir i.pinDir, bars := Tab.merge s.bars i.bars
    ctrs := Tab.merge (Tab.keep s.ctrs (fun k _ => k / 2 ^ 20 % 256 != i.p)) i.ctrs
    lcb := Tab.merge (Tab.keep s.lcb (fun k _ => k / 32 != i.p)) i.lcb
    fullUnits := i.fullUnits.foldl (fun l u => insertAsc u l) s.fullUnits
    grants := i.grants.foldl (fun (t : Tab Nat) f => t.put f i.p) s.grants
    nextSlot := max s.nextSlot i.slots.nextKey
    stamp := s.stamp + i.stamp }
/-- Pages of a partition still to be pulled. -/
def State.pullPages (s : State) (p : Nat) : List Nat :=
  (s.pages.filter (fun e => e.1 / 2 ^ 40 == p && !e.2.valid && e.2.state == 3)).map (fun e => e.1 % 2 ^ 40)
/-- The fault queue is empty and every wait is entered again (R97), with source 4 for a page that is to be pulled (R94). -/
def State.reenterFaults (s : State) (i : MigImage) : State :=
  let s := match s.kindQueue i.p 3 with
    | some (h, q) => s.writeQueue i.p h { q with head := q.tail }
    | none => s
  let anew := fun (e : Nat × PageWait) =>
    (e.1, { e.2 with posted := none, source := if (s.pullPages i.p).contains (e.1 % 2 ^ 40) then 4 else e.2.source })
  ({ s with pageWaits := Tab.merge s.pageWaits (i.waits.map anew), pageMore := s.pageMore ++ i.more.map anew }).postFaults i.p
/-- Whether the counts and shares of an arriving partition keep the sums here within their bounds (R74, R76). -/
def State.sumsFit (s : State) (i : MigImage) : Bool :=
  s.shares i.p + i.part.callk + i.part.faultk ≤ s.capk && s.guars i.p + i.part.guar + s.pkg.audcap ≤ guarRoom
/-- With pages to pull the migration goes on at the destination, and a pull is out from now. -/
def State.startPulls (s : State) (p : Nat) : State :=
  s.updPart p (fun x => { x with migrating := if s.pullPages p = [] then 0 else 3, pullAsked := (s.ref 0).toNat })
/-- MIGRATION_ARRIVAL (R56, R60, R66 steps 5 and 6, R97, R136): an image whose signature fails is dropped; another is installed on the cores
that it is given here once all of it has been received, its counts fit here, and the partition number, the group slots, the scratchpad frames and the fixed frames it needs are
free. Its groups stay halted until GROUP_RESUME; pages that were not sent are at STATE 3, and the first pull goes out. -/
def execMigrationArrival (k : Nat) (sigOk : Bool) (s : State) : Host.Outcome State Fault Refusal :=
  match s.pkg.migIn[k]? with
  | none => .next s
  | some raw =>
    let i0 := raw.moved
    let gone := { s with pkg.migIn := s.pkg.migIn.eraseIdx k }
    if !sigOk then .next gone
    else if (s.part i0.p).live ∨ 64 ≤ i0.p ∨ s.pkg.stage < 3 ∨ i0.missing ∨ !raw.movesWhole ∨ !s.sumsFit i0 ∨ i0.groups.any (fun e => (s.groups.find e.1).isSome || !s.clusterUp (coreOf e.1 / 8)) ∨
        i0.scratch.any (fun f => (s.frame f).owner != 127) then .next s
    else
      let i := i0.rebase s.stamp s.nextSlot (fun d => (s.ref d).toNat)
      let s1 := gone.install i
      if !(i.groups.all (fun e => s1.coreFits (coreOf e.1))) then .next s
      else match (s1.placeFixed i).bind (fun s2 => s2.placeSaves i) with
        | none => .next s
        | some s2 =>
          let s3 := ((s2.placeCopied i).placeScratch i).startPulls i.p
          .next ((s3.reenterFaults i).reading i.p 3 i.part.lastReading).2
/-- A pull has been answered: the next goes out from now, and without one the migration is over. -/
def State.endPulls (s : State) (p : Nat) : State :=
  let s := s.updPart p (fun x => { x with pullAsked := (s.ref 0).toNat })
  if s.pullPages p = [] then s.updPart p (fun x => { x with migrating := if x.migrating = 3 then 0 else x.migrating, pulls := [] }) else s
/-- The page that the next pull takes (R97): the lowest that a fault entry with source 4 asks for, else the lowest. -/
def State.nextPull (s : State) (p : Nat) : Option Nat :=
  let ps := s.pullPages p
  let asked := fun (q : Nat) => (match s.pageWaits.find (pageKey p q) with | some w => w.source == 4 | none => false) ||
    s.pageMore.any (fun e => e.1 == pageKey p q && e.2.source == 4)
  (match ps.filter asked with | [] => ps | a => a).foldl (fun m q => match m with | some x => some (min x q) | none => some q) none
/-- The poisoned sectors that the transit form of a page marks (R296): after its 65,536 bytes one bit for each of its 2,048 sectors, lowest
first (log 82). -/
def transitPoison (data : List Byte) : List Nat :=
  (data.drop frameBytes).zipIdx.flatMap (fun e => ((upTo 8).filter (fun b => e.1.getLsbD b && e.2 < 256)).map (fun b => 8 * e.2 + b))
/-- POST_COPY_PULL (R56, R74, R92, R96, R97, R296): the drain and network sets pull the next page over a chip-to-chip link into a frame of
the partition, for which it waits when none is to be had; a third digest that fails makes it LOST. -/
def execPostCopyPull (p page : Nat) (data : List Byte) (digestOk : Bool) (s : State) : Host.Outcome State Fault Refusal :=
  if s.nextPull p ≠ some page ∨ !s.netUp ∨ !s.pullServed then .next s
  else match s.pages.find (pageKey p page) with
    | none => .next s
    | some e =>
      if !digestOk then .next ((s.pullFails p page).endPulls p)
      else match (if s.mayTake p 1 false then s.freeRun 1 0 else none) with
        | none => .next (s.wantFrames p 1 0)
        | some f =>
          let s := ((s.takeFrame p f false).gotFrames p).wrBytes (frameAddr f) (data.take frameBytes)
          let s := { s with poison := (transitPoison data).foldl (fun l k => insertAsc (frameAddr f / 32 + k) l) s.poison }
          let s := s.setFrame f { s.frame f with maps := 1 }
          let s := s.updPart p (fun x => { x with sentPages := x.sentPages + 1, sentBytes := x.sentBytes + frameBytes })
          .next (((s.setPage p page (e.leafAt f)).endPageWait p page).endPulls p)
/-- POST_COPY_PULL_FAIL (R62, R98): the source reports loss, no chip-to-chip path is left, or a pull that is out has not been answered for
10 ms, which is 27,000,000 counts of the reference; one is out while both sets are served and no page that has come waits for a frame.
Every page still at STATE 3 is LOST, what waits for one resolves, and the operator gets one notice. -/
def execPostCopyPullFail (p : PullEnd) (s : State) : Host.Outcome State Fault Refusal :=
  let loss := p.loss
  let p := p.p
  let ps := s.pullPages p
  let x := s.part p
  let late := s.pullServed && x.frameWait = none && x.pullAsked + 27000000 ≤ (s.ref 0).toNat
  if ps = [] ∨ !(loss || !s.netUp || late) then .next s
  else
    let s := ps.foldl (fun s q => s.closePage p q 4) s
    .next ((s.eventNotice 2 1 p (min (2 ^ 32 - 1) ps.length)).endPulls p)
/-- The source abandons a migration (R68): the destination discards the keys and frees the frames of what has arrived. -/
def State.abandoned (s : State) (p : Nat) : State :=
  let s := { s with pkg.migIn := s.pkg.migIn.filter (fun i => i.p != p) }
  if (s.part p).migrating = 3 then s.dropPart p else s
/-- A page or row of an arriving image fails its digest, and counts as not received until it arrives again (R56). -/
def State.arrival (s : State) (k : Nat) (missing : Bool) : State :=
  { s with pkg.migIn := s.pkg.migIn.zipIdx.map (fun e => if e.2 = k then { e.1 with missing := missing } else e.1) }
/-- A pull of a page from the lower tier fails its digest (R56, R96). -/
def State.pullBad (s : State) (p page : Nat) : State :=
  match s.walk p page with
  | some (_, e) => if !e.valid && e.state == 2 && s.tierServed then s.pullFails p page else s
  | none => s

end Sys2Proof.Machine
end

