-- ==== Sys2Proof/Machine/FloatOps.lean ====
section
/-! DEFINITION. Floating-point and conversion instructions, opcodes 0x080 to 0x0FF (R372 to R386). -/
namespace Sys2Proof.Machine
open Flt

/-- One, two and three 32-bit sources, and the immediate form (R372). -/
def fltOp1 (u : Uses) (f : VForm) (alu : Nat → Nat) : LaneOp :=
  { uses := u, act := fun o c t => c.wr32 t f.d (BitVec.ofNat 32 (alu (o.src32 t f.a).toNat)) }
def fltOp2 (u : Uses) (f : VForm) (alu : Nat → Nat → Nat) : LaneOp :=
  { uses := u, act := fun o c t => c.wr32 t f.d (BitVec.ofNat 32 (alu (o.src32 t f.a).toNat (o.src32 t f.b).toNat)) }
def fltOp3 (u : Uses) (f : VForm) (alu : Nat → Nat → Nat → Nat) : LaneOp :=
  { uses := u,
    act := fun o c t =>
      c.wr32 t f.d (BitVec.ofNat 32 (alu (o.src32 t f.a).toNat (o.src32 t f.b).toNat (o.src32 t f.c).toNat)) }
def fltOpI (u : Uses) (f : IForm) (alu : Nat → Nat → Nat) : LaneOp :=
  { uses := u, act := fun o c t => c.wr32 t f.d (BitVec.ofNat 32 (alu (o.src32 t f.a).toNat f.imm.toNat)) }

/-- Element by element on BF16 pairs (R380). -/
def pairs (alu : Nat → Nat → Nat) (a b : Nat) : Nat := alu (a % 65536) (b % 65536) + 65536 * alu (a / 65536) (b / 65536)
def pairs3 (alu : Nat → Nat → Nat → Nat) (a b c : Nat) : Nat :=
  alu (a % 65536) (b % 65536) (c % 65536) + 65536 * alu (a / 65536) (b / 65536) (c / 65536)

/-- FDIV, FRCP and FSQRT under RND and `.sat` (R379). -/
def fdivAlu (rnd : Nat) (sat : Bool) (a b : Nat) : Nat := f32.round rnd sat (div (f32.decode a) (f32.decode b))
def fsqrtAlu (rnd : Nat) (sat : Bool) (a : Nat) : Nat := f32.round rnd sat (sqrt (f32.decode a))
/-- FSCALE (R378). -/
def fscaleAlu (rnd : Nat) (sat : Bool) (a n : Nat) : Nat := f32.round rnd sat (scale (toSigned 32 n) (f32.decode a))
/-- The pairs of source and destination formats whose conversion is exact (R382): RND and SAT have no effect on their results. -/
def exactPair (src dst : Nat) : Bool := (dst == 9 && src ≤ 4) || (dst ≤ 1 && 2 ≤ src && src ≤ 4)
/-- CVT (R381 to R383): the element that SEL chooses, converted. -/
def cvtAlu (f : VForm) (a : Nat) : Nat :=
  let w := codeBits f.sfmt.toNat
  encodeCode f.dfmt.toNat f.rnd.toNat (f.sat && !exactPair f.sfmt.toNat f.dfmt.toNat) (decodeCode f.sfmt.toNat (a / 2 ^ (w * f.sel.toNat) % 2 ^ w))
/-- PACKB (R384). -/
def packAlu (sel a b : Nat) : Nat :=
  (if sel % 2 = 1 then a / 65536 else a % 65536) + 65536 * (if sel / 2 % 2 = 1 then b / 65536 else b % 65536)
/-- FADD (R374). -/
def execFadd (f : VForm) (s : State) : Host.Outcome State Fault Refusal :=
  (fltOp2 (Instr.fadd f).uses f (f32.fadd f.rnd.toNat f.sat)).exec s
/-- FADD, immediate form (R374). -/
def execFaddI (f : IForm) (s : State) : Host.Outcome State Fault Refusal :=
  (fltOpI (Instr.faddI f).uses f (f32.fadd f.rnd.toNat f.sat)).exec s
/-- FSUB (R374). -/
def execFsub (f : VForm) (s : State) : Host.Outcome State Fault Refusal :=
  (fltOp2 (Instr.fsub f).uses f (f32.fsub f.rnd.toNat f.sat)).exec s
/-- FSUB, immediate form (R374). -/
def execFsubI (f : IForm) (s : State) : Host.Outcome State Fault Refusal :=
  (fltOpI (Instr.fsubI f).uses f (f32.fsub f.rnd.toNat f.sat)).exec s
/-- FMUL (R374). -/
def execFmul (f : VForm) (s : State) : Host.Outcome State Fault Refusal :=
  (fltOp2 (Instr.fmul f).uses f (f32.fmul f.rnd.toNat f.sat)).exec s
/-- FMUL, immediate form (R374). -/
def execFmulI (f : IForm) (s : State) : Host.Outcome State Fault Refusal :=
  (fltOpI (Instr.fmulI f).uses f (f32.fmul f.rnd.toNat f.sat)).exec s
/-- FFMA (R374). -/
def execFfma (f : VForm) (s : State) : Host.Outcome State Fault Refusal :=
  (fltOp3 (Instr.ffma f).uses f (f32.ffma f.rnd.toNat f.sat)).exec s
/-- FMIN (R375). -/
def execFmin (f : VForm) (s : State) : Host.Outcome State Fault Refusal :=
  (fltOp2 (Instr.fmin f).uses f (f32.minmax false)).exec s
/-- FMIN, immediate form (R375). -/
def execFminI (f : IForm) (s : State) : Host.Outcome State Fault Refusal :=
  (fltOpI (Instr.fminI f).uses f (f32.minmax false)).exec s
/-- FMAX (R375). -/
def execFmax (f : VForm) (s : State) : Host.Outcome State Fault Refusal :=
  (fltOp2 (Instr.fmax f).uses f (f32.minmax true)).exec s
/-- FMAX, immediate form (R375). -/
def execFmaxI (f : IForm) (s : State) : Host.Outcome State Fault Refusal :=
  (fltOpI (Instr.fmaxI f).uses f (f32.minmax true)).exec s
/-- FCMP (R376). -/
def execFcmp (f : VForm) (s : State) : Host.Outcome State Fault Refusal :=
  LaneOp.exec
    { uses := (Instr.fcmp f).uses,
      act := fun o c t => c.wrTest t f.d (Flt.fcond f.sel.toNat (o.src32 t f.a).toNat (o.src32 t f.b).toNat) } s
/-- FCMP, immediate form (R376). -/
def execFcmpI (f : IForm) (s : State) : Host.Outcome State Fault Refusal :=
  LaneOp.exec
    { uses := (Instr.fcmpI f).uses,
      act := fun o c t => c.wrTest t f.d (Flt.fcond f.sel.toNat (o.src32 t f.a).toNat f.imm.toNat) } s
/-- FCLASS (R377): the mask, or a test of it. -/
def execFclass (f : VForm) (s : State) : Host.Outcome State Fault Refusal :=
  LaneOp.exec
    { uses := (Instr.fclass f).uses,
      act := fun o c t =>
        let k := Flt.fclass (o.src32 t f.a).toNat
        if f.d.isP then c.wrTest t f.d ((o.src32 t f.b).getLsbD k) else c.wr32 t f.d (1 <<< k) } s
/-- FSCALE (R378). -/
def execFscale (f : VForm) (s : State) : Host.Outcome State Fault Refusal :=
  (fltOp2 (Instr.fscale f).uses f (fscaleAlu f.rnd.toNat f.sat)).exec s
/-- FSCALE, immediate form (R378). -/
def execFscaleI (f : IForm) (s : State) : Host.Outcome State Fault Refusal :=
  (fltOpI (Instr.fscaleI f).uses f (fscaleAlu f.rnd.toNat f.sat)).exec s
/-- FRND (R378). -/
def execFrnd (f : VForm) (s : State) : Host.Outcome State Fault Refusal :=
  (fltOp1 (Instr.frnd f).uses f (f32.integral f.rnd.toNat)).exec s
/-- FRCP (R379). -/
def execFrcp (f : VForm) (s : State) : Host.Outcome State Fault Refusal :=
  (fltOp1 (Instr.frcp f).uses f (fdivAlu f.rnd.toNat f.sat 0x3F800000)).exec s
/-- FRSQ (R379). -/
def execFrsq (f : VForm) (s : State) : Host.Outcome State Fault Refusal :=
  (fltOp1 (Instr.frsq f).uses f (fun a => f32.round 0 false (rsqrt (f32.decode a)))).exec s
/-- FSQRT (R379). -/
def execFsqrt (f : VForm) (s : State) : Host.Outcome State Fault Refusal :=
  (fltOp1 (Instr.fsqrt f).uses f (fsqrtAlu f.rnd.toNat f.sat)).exec s
/-- FDIV (R379). -/
def execFdiv (f : VForm) (s : State) : Host.Outcome State Fault Refusal :=
  (fltOp2 (Instr.fdiv f).uses f (fdivAlu f.rnd.toNat f.sat)).exec s
/-- FEXP2 (R379). -/
def execFexp2 (f : VForm) (s : State) : Host.Outcome State Fault Refusal :=
  (fltOp1 (Instr.fexp2 f).uses f exp2).exec s
/-- FLOG2 (R379). -/
def execFlog2 (f : VForm) (s : State) : Host.Outcome State Fault Refusal :=
  (fltOp1 (Instr.flog2 f).uses f Flt.log2).exec s
/-- FSIN (R379). -/
def execFsin (f : VForm) (s : State) : Host.Outcome State Fault Refusal :=
  (fltOp1 (Instr.fsin f).uses f (trig 0)).exec s
/-- FCOS (R379). -/
def execFcos (f : VForm) (s : State) : Host.Outcome State Fault Refusal :=
  (fltOp1 (Instr.fcos f).uses f (trig 1)).exec s
/-- FTANH (R379). -/
def execFtanh (f : VForm) (s : State) : Host.Outcome State Fault Refusal :=
  (fltOp1 (Instr.ftanh f).uses f Flt.tanh).exec s
/-- HADD2 (R380). -/
def execHadd2 (f : VForm) (s : State) : Host.Outcome State Fault Refusal :=
  (fltOp2 (Instr.hadd2 f).uses f (pairs (bf16.fadd f.rnd.toNat f.sat))).exec s
/-- HMUL2 (R380). -/
def execHmul2 (f : VForm) (s : State) : Host.Outcome State Fault Refusal :=
  (fltOp2 (Instr.hmul2 f).uses f (pairs (bf16.fmul f.rnd.toNat f.sat))).exec s
/-- HFMA2 (R380). -/
def execHfma2 (f : VForm) (s : State) : Host.Outcome State Fault Refusal :=
  (fltOp3 (Instr.hfma2 f).uses f (pairs3 (bf16.ffma f.rnd.toNat f.sat))).exec s
/-- HMAX2 (R380). -/
def execHmax2 (f : VForm) (s : State) : Host.Outcome State Fault Refusal :=
  (fltOp2 (Instr.hmax2 f).uses f (pairs (bf16.minmax (f.sel == 0)))).exec s
/-- CVT (R381). -/
def execCvt (f : VForm) (s : State) : Host.Outcome State Fault Refusal :=
  (fltOp1 (Instr.cvt f).uses f (cvtAlu f)).exec s
/-- PACKB (R384). -/
def execPackb (f : VForm) (s : State) : Host.Outcome State Fault Refusal :=
  (fltOp2 (Instr.packb f).uses f (packAlu f.sel.toNat)).exec s
/-- UNPACKB (R384). -/
def execUnpackb (f : VForm) (s : State) : Host.Outcome State Fault Refusal :=
  (fltOp1 (Instr.unpackb f).uses f (fun a => (if f.sel = 0 then a % 65536 else a / 65536) * 65536)).exec s

end Sys2Proof.Machine
end

