-- ==== Sys2Proof/Machine/Integer.lean ====
section
/-! DEFINITION. Integer and address instructions, opcodes 0x000 to 0x07F (R342 to R354). -/
namespace Sys2Proof.Machine

/-- High half of the product (R345): signed for SEL 0, unsigned for SEL 1. -/
def imulhAlu (sel w a b : Nat) : Nat :=
  if sel = 0 then wrap w (toSigned w a * toSigned w b / 2 ^ w) else a * b / 2 ^ w
def iminAlu (sel w a b : Nat) : Nat :=
  if sel = 0 then (if toSigned w b < toSigned w a then b else a) else (if b < a then b else a)
def imaxAlu (sel w a b : Nat) : Nat :=
  if sel = 0 then (if toSigned w a < toSigned w b then b else a) else (if a < b then b else a)
def andnAlu (w a b : Nat) : Nat := a &&& (2 ^ w - 1 - b)
/-- Shifts by the width or more give 0, or copies of the sign (R345). -/
def shlAlu (w a n : Nat) : Nat := if n < w then a * 2 ^ n % 2 ^ w else 0
def shrAlu (w a n : Nat) : Nat := if n < w then a / 2 ^ n else 0
def sarAlu (w a n : Nat) : Nat := wrap w (toSigned w a / 2 ^ (min n w))
def rolAlu (w a n : Nat) : Nat := (a * 2 ^ (n % w) + a / 2 ^ (w - n % w)) % 2 ^ w
/-- Leading zeros in the low `w` bits (R345). -/
def clzAlu : Nat → Nat → Nat
  | 0, _ => 0
  | w + 1, a => if a / 2 ^ w % 2 = 1 then 0 else clzAlu w a + 1
/-- Ones in the low `w` bits. -/
def popcAlu : Nat → Nat → Nat
  | 0, _ => 0
  | w + 1, a => a / 2 ^ w % 2 + popcAlu w a
/-- Bit i moves to bit w - 1 - i. -/
def brevAlu : Nat → Nat → Nat
  | 0, _ => 0
  | w + 1, a => a % 2 * 2 ^ w + brevAlu w (a / 2)
/-- BFE (R348). -/
def bfeAlu (sel w a pos len : Nat) : Nat :=
  if w ≤ pos ∨ len = 0 then 0
  else
    let n := min len (w - pos)
    let x := a / 2 ^ pos % 2 ^ n
    if sel = 0 then wrap w (toSigned n x) else x
/-- BFI (R348): `b` holds pos in [7:0] and len in [15:8]. -/
def bfiAlu (w a b c : Nat) : Nat :=
  let pos := b % 256
  let len := b / 256 % 256
  if w ≤ pos ∨ len = 0 then c
  else
    let n := min len (w - pos)
    c % 2 ^ pos + a % 2 ^ n * 2 ^ pos + c / 2 ^ (pos + n) * 2 ^ (pos + n)
/-- Width m of SEXT and ZEXT by SEL (R349). -/
def extBits (sel : Nat) : Nat := match sel with | 0 => 8 | 1 => 16 | 2 => 4 | 3 => 1 | _ => 32

/-- Two sources at width W. -/
def intV2 (u : Uses) (f : VForm) (alu : Nat → Nat → Nat → Nat) : LaneOp :=
  { uses := u,
    act := fun o c t => c.wrW f.wide t f.d (alu (widthBits f.wide) (o.srcW f.wide t f.a) (o.srcW f.wide t f.b)) }
/-- One source and the immediate at width W. -/
def intI (u : Uses) (f : IForm) (alu : Nat → Nat → Nat → Nat) : LaneOp :=
  { uses := u, act := fun o c t => c.wrW f.wide t f.d (alu (widthBits f.wide) (o.srcW f.wide t f.a) (immW f.wide f.imm)) }
/-- One source at width W. -/
def intV1 (u : Uses) (f : VForm) (alu : Nat → Nat → Nat) : LaneOp :=
  { uses := u, act := fun o c t => c.wrW f.wide t f.d (alu (widthBits f.wide) (o.srcW f.wide t f.a)) }
/-- Three sources at width W. -/
def intV3 (u : Uses) (f : VForm) (alu : Nat → Nat → Nat → Nat → Nat) : LaneOp :=
  { uses := u, act := fun o c t => c.wrW f.wide t f.d
      (alu (widthBits f.wide) (o.srcW f.wide t f.a) (o.srcW f.wide t f.b) (o.srcW f.wide t f.c)) }

/-- INVALID: ILLEGAL_OP in every thread that reaches it, whatever its guard (R338, R354). -/
def execInvalid (_f : VForm) (s : State) : Host.Outcome State Fault Refusal :=
  .next (s.trapAll s.cur.pc (s.cur.lanes.map (fun t => (t, opTrap .illegalOp s.cur.raw))))
/-- NOP (R354): retires without being counted (R154). -/
def execNop (f : VForm) (s : State) : Host.Outcome State Fault Refusal :=
  LaneOp.exec { uses := (Instr.nop f).uses, act := fun _ c _ => c, counts := false } s
/-- IADD (R345). -/
def execIadd (f : VForm) (s : State) : Host.Outcome State Fault Refusal :=
  (intV2 (Instr.iadd f).uses f (fun w a b => narrow w f.sat (toSigned w a + toSigned w b))).exec s
/-- IADD, immediate form (R345). -/
def execIaddI (f : IForm) (s : State) : Host.Outcome State Fault Refusal :=
  (intI (Instr.iaddI f).uses f (fun w a b => narrow w f.sat (toSigned w a + toSigned w b))).exec s
/-- ISUB (R345). -/
def execIsub (f : VForm) (s : State) : Host.Outcome State Fault Refusal :=
  (intV2 (Instr.isub f).uses f (fun w a b => narrow w f.sat (toSigned w a - toSigned w b))).exec s
/-- ISUB, immediate form (R345). -/
def execIsubI (f : IForm) (s : State) : Host.Outcome State Fault Refusal :=
  (intI (Instr.isubI f).uses f (fun w a b => narrow w f.sat (toSigned w a - toSigned w b))).exec s
/-- IMUL (R345). -/
def execImul (f : VForm) (s : State) : Host.Outcome State Fault Refusal :=
  (intV2 (Instr.imul f).uses f (fun w a b => wrap w (a * b : Nat))).exec s
/-- IMUL, immediate form (R345). -/
def execImulI (f : IForm) (s : State) : Host.Outcome State Fault Refusal :=
  (intI (Instr.imulI f).uses f (fun w a b => wrap w (a * b : Nat))).exec s
/-- IMULH (R345). -/
def execImulh (f : VForm) (s : State) : Host.Outcome State Fault Refusal :=
  (intV2 (Instr.imulh f).uses f (fun w a b => imulhAlu f.sel.toNat w a b)).exec s
/-- IMULH, immediate form (R345). -/
def execImulhI (f : IForm) (s : State) : Host.Outcome State Fault Refusal :=
  (intI (Instr.imulhI f).uses f (fun w a b => imulhAlu f.sel.toNat w a b)).exec s
/-- IMIN (R345). -/
def execImin (f : VForm) (s : State) : Host.Outcome State Fault Refusal :=
  (intV2 (Instr.imin f).uses f (fun w a b => iminAlu f.sel.toNat w a b)).exec s
/-- IMIN, immediate form (R345). -/
def execIminI (f : IForm) (s : State) : Host.Outcome State Fault Refusal :=
  (intI (Instr.iminI f).uses f (fun w a b => iminAlu f.sel.toNat w a b)).exec s
/-- IMAX (R345). -/
def execImax (f : VForm) (s : State) : Host.Outcome State Fault Refusal :=
  (intV2 (Instr.imax f).uses f (fun w a b => imaxAlu f.sel.toNat w a b)).exec s
/-- IMAX, immediate form (R345). -/
def execImaxI (f : IForm) (s : State) : Host.Outcome State Fault Refusal :=
  (intI (Instr.imaxI f).uses f (fun w a b => imaxAlu f.sel.toNat w a b)).exec s
/-- AND (R345). -/
def execAndB (f : VForm) (s : State) : Host.Outcome State Fault Refusal :=
  (intV2 (Instr.andB f).uses f (fun _ a b => a &&& b)).exec s
/-- AND, immediate form (R345). -/
def execAndBI (f : IForm) (s : State) : Host.Outcome State Fault Refusal :=
  (intI (Instr.andBI f).uses f (fun _ a b => a &&& b)).exec s
/-- OR (R345). -/
def execOrB (f : VForm) (s : State) : Host.Outcome State Fault Refusal :=
  (intV2 (Instr.orB f).uses f (fun _ a b => a ||| b)).exec s
/-- OR, immediate form (R345). -/
def execOrBI (f : IForm) (s : State) : Host.Outcome State Fault Refusal :=
  (intI (Instr.orBI f).uses f (fun _ a b => a ||| b)).exec s
/-- XOR (R345). -/
def execXorB (f : VForm) (s : State) : Host.Outcome State Fault Refusal :=
  (intV2 (Instr.xorB f).uses f (fun _ a b => a ^^^ b)).exec s
/-- XOR, immediate form (R345). -/
def execXorBI (f : IForm) (s : State) : Host.Outcome State Fault Refusal :=
  (intI (Instr.xorBI f).uses f (fun _ a b => a ^^^ b)).exec s
/-- ANDN (R345). -/
def execAndnB (f : VForm) (s : State) : Host.Outcome State Fault Refusal :=
  (intV2 (Instr.andnB f).uses f (fun w a b => andnAlu w a b)).exec s
/-- ANDN, immediate form (R345). -/
def execAndnBI (f : IForm) (s : State) : Host.Outcome State Fault Refusal :=
  (intI (Instr.andnBI f).uses f (fun w a b => andnAlu w a b)).exec s
/-- SHL (R345). -/
def execShl (f : VForm) (s : State) : Host.Outcome State Fault Refusal :=
  (intV2 (Instr.shl f).uses f (fun w a b => shlAlu w a b)).exec s
/-- SHL, immediate form (R345). -/
def execShlI (f : IForm) (s : State) : Host.Outcome State Fault Refusal :=
  (intI (Instr.shlI f).uses f (fun w a b => shlAlu w a b)).exec s
/-- SHR (R345). -/
def execShr (f : VForm) (s : State) : Host.Outcome State Fault Refusal :=
  (intV2 (Instr.shr f).uses f (fun w a b => shrAlu w a b)).exec s
/-- SHR, immediate form (R345). -/
def execShrI (f : IForm) (s : State) : Host.Outcome State Fault Refusal :=
  (intI (Instr.shrI f).uses f (fun w a b => shrAlu w a b)).exec s
/-- SAR (R345). -/
def execSar (f : VForm) (s : State) : Host.Outcome State Fault Refusal :=
  (intV2 (Instr.sar f).uses f (fun w a b => sarAlu w a b)).exec s
/-- SAR, immediate form (R345). -/
def execSarI (f : IForm) (s : State) : Host.Outcome State Fault Refusal :=
  (intI (Instr.sarI f).uses f (fun w a b => sarAlu w a b)).exec s
/-- ROL (R345). -/
def execRol (f : VForm) (s : State) : Host.Outcome State Fault Refusal :=
  (intV2 (Instr.rol f).uses f (fun w a b => rolAlu w a b)).exec s
/-- ROL, immediate form (R345). -/
def execRolI (f : IForm) (s : State) : Host.Outcome State Fault Refusal :=
  (intI (Instr.rolI f).uses f (fun w a b => rolAlu w a b)).exec s
/-- IABS (R345). -/
def execIabs (f : VForm) (s : State) : Host.Outcome State Fault Refusal :=
  (intV1 (Instr.iabs f).uses f (fun w a => narrow w f.sat ((toSigned w a).natAbs : Int))).exec s
/-- INEG (R345). -/
def execIneg (f : VForm) (s : State) : Host.Outcome State Fault Refusal :=
  (intV1 (Instr.ineg f).uses f (fun w a => narrow w f.sat (-toSigned w a))).exec s
/-- NOT (R345). -/
def execNotB (f : VForm) (s : State) : Host.Outcome State Fault Refusal :=
  (intV1 (Instr.notB f).uses f (fun w a => 2 ^ w - 1 - a)).exec s
/-- CLZ (R345). -/
def execClz (f : VForm) (s : State) : Host.Outcome State Fault Refusal :=
  (intV1 (Instr.clz f).uses f (fun w a => clzAlu w a)).exec s
/-- POPC (R345). -/
def execPopc (f : VForm) (s : State) : Host.Outcome State Fault Refusal :=
  (intV1 (Instr.popc f).uses f (fun w a => popcAlu w a)).exec s
/-- BREV (R345). -/
def execBrev (f : VForm) (s : State) : Host.Outcome State Fault Refusal :=
  (intV1 (Instr.brev f).uses f (fun w a => brevAlu w a)).exec s
/-- IMAD (R345). -/
def execImad (f : VForm) (s : State) : Host.Outcome State Fault Refusal :=
  (intV3 (Instr.imad f).uses f (fun w a b c => (a * b + c) % 2 ^ w)).exec s
/-- IADDC (R347): the carry predicate is read and written. -/
def execIaddc (f : VForm) (s : State) : Host.Outcome State Fault Refusal :=
  LaneOp.exec
    { uses := (Instr.iaddc f).uses,
      act := fun o c t =>
        let r := addCarry (widthBits f.wide) (o.srcW f.wide t f.a) (o.srcW f.wide t f.b) ((o.src32 t f.c).getLsbD 0)
        (c.wrW f.wide t f.d r.1).wrTest t f.c r.2 } s
/-- ICMP (R346). -/
def execIcmp (f : VForm) (s : State) : Host.Outcome State Fault Refusal :=
  LaneOp.exec
    { uses := (Instr.icmp f).uses,
      act := fun o c t => c.wrTest t f.d
        (icond f.sel.toNat (widthBits f.a.isG) (o.srcW f.a.isG t f.a) (o.srcW f.a.isG t f.b)) } s
/-- ICMP, immediate form (R346). -/
def execIcmpI (f : IForm) (s : State) : Host.Outcome State Fault Refusal :=
  LaneOp.exec
    { uses := (Instr.icmpI f).uses,
      act := fun o c t => c.wrTest t f.d
        (icond f.sel.toNat (widthBits f.a.isG) (o.srcW f.a.isG t f.a) (immW f.a.isG f.imm)) } s
/-- BFE (R348). -/
def execBfe (f : VForm) (s : State) : Host.Outcome State Fault Refusal :=
  (intV3 (Instr.bfe f).uses f (fun w a b c => bfeAlu f.sel.toNat w a b c)).exec s
/-- BFI (R348). -/
def execBfi (f : VForm) (s : State) : Host.Outcome State Fault Refusal :=
  (intV3 (Instr.bfi f).uses f (fun w a b c => bfiAlu w a b c)).exec s
/-- SEL (R350). -/
def execSel (f : VForm) (s : State) : Host.Outcome State Fault Refusal :=
  LaneOp.exec
    { uses := (Instr.sel f).uses,
      act := fun o c t => c.wrW f.wide t f.d
        (if (o.src32 t f.c).getLsbD 0 then o.srcW f.wide t f.a else o.srcW f.wide t f.b) } s
/-- LEA (R353). -/
def execLea (f : MForm) (s : State) : Host.Outcome State Fault Refusal :=
  LaneOp.exec { uses := (Instr.lea f).uses, act := fun o c t => c.wr64 t f.data (BitVec.ofNat 64 (f.ea o t 0)) } s
/-- IADDW (R352). -/
def execIaddw (f : VForm) (s : State) : Host.Outcome State Fault Refusal :=
  LaneOp.exec
    { uses := (Instr.iaddw f).uses,
      act := fun o c t =>
        let b := o.src32 t f.b
        c.wr64 t f.d (o.src64 t f.a + (if f.sel = 0 then b.signExtend 64 else b.zeroExtend 64)) } s
/-- SEXT (R349). -/
def execSext (f : VForm) (s : State) : Host.Outcome State Fault Refusal :=
  (intV1 (Instr.sext f).uses f (fun w a => let m := extBits f.sel.toNat; wrap w (toSigned m (a % 2 ^ m)))).exec s
/-- ZEXT (R349). -/
def execZext (f : VForm) (s : State) : Host.Outcome State Fault Refusal :=
  (intV1 (Instr.zext f).uses f (fun _ a => a % 2 ^ extBits f.sel.toNat)).exec s
/-- MOV (R351). -/
def execMov (f : VForm) (s : State) : Host.Outcome State Fault Refusal :=
  (intV1 (Instr.mov f).uses f (fun _ a => a)).exec s
/-- MOVI (R351). -/
def execMovi (f : IForm) (s : State) : Host.Outcome State Fault Refusal :=
  LaneOp.exec { uses := (Instr.movi f).uses, act := fun _ c t => c.wrW f.wide t f.d (immW f.wide f.imm) } s
/-- MOVU (R351): bits [63:32] of a uniform register. -/
def execMovu (f : IForm) (s : State) : Host.Outcome State Fault Refusal :=
  LaneOp.exec
    { uses := (Instr.movu f).uses, act := fun o c t => c.wr64 t f.d (f.imm ++ (o.src64 t f.d).truncate 32) } s

end Sys2Proof.Machine
end

