-- ==== Sys2Proof/Machine/Dispatch.lean ====
section
/-! DEFINITION. The meaning of every instruction, one arm per constructor of Instr. -/
namespace Sys2Proof.Machine

def exec (i : Instr) (s : State) : Host.Outcome State Fault Refusal :=
  match i with
  | .invalid f => Sys2Proof.Machine.execInvalid f s
  | .nop f => Sys2Proof.Machine.execNop f s
  | .iadd f => Sys2Proof.Machine.execIadd f s
  | .iaddI f => Sys2Proof.Machine.execIaddI f s
  | .isub f => Sys2Proof.Machine.execIsub f s
  | .isubI f => Sys2Proof.Machine.execIsubI f s
  | .imul f => Sys2Proof.Machine.execImul f s
  | .imulI f => Sys2Proof.Machine.execImulI f s
  | .imulh f => Sys2Proof.Machine.execImulh f s
  | .imulhI f => Sys2Proof.Machine.execImulhI f s
  | .imad f => Sys2Proof.Machine.execImad f s
  | .iaddc f => Sys2Proof.Machine.execIaddc f s
  | .imin f => Sys2Proof.Machine.execImin f s
  | .iminI f => Sys2Proof.Machine.execIminI f s
  | .imax f => Sys2Proof.Machine.execImax f s
  | .imaxI f => Sys2Proof.Machine.execImaxI f s
  | .iabs f => Sys2Proof.Machine.execIabs f s
  | .ineg f => Sys2Proof.Machine.execIneg f s
  | .icmp f => Sys2Proof.Machine.execIcmp f s
  | .icmpI f => Sys2Proof.Machine.execIcmpI f s
  | .andB f => Sys2Proof.Machine.execAndB f s
  | .andBI f => Sys2Proof.Machine.execAndBI f s
  | .orB f => Sys2Proof.Machine.execOrB f s
  | .orBI f => Sys2Proof.Machine.execOrBI f s
  | .xorB f => Sys2Proof.Machine.execXorB f s
  | .xorBI f => Sys2Proof.Machine.execXorBI f s
  | .andnB f => Sys2Proof.Machine.execAndnB f s
  | .andnBI f => Sys2Proof.Machine.execAndnBI f s
  | .notB f => Sys2Proof.Machine.execNotB f s
  | .shl f => Sys2Proof.Machine.execShl f s
  | .shlI f => Sys2Proof.Machine.execShlI f s
  | .shr f => Sys2Proof.Machine.execShr f s
  | .shrI f => Sys2Proof.Machine.execShrI f s
  | .sar f => Sys2Proof.Machine.execSar f s
  | .sarI f => Sys2Proof.Machine.execSarI f s
  | .rol f => Sys2Proof.Machine.execRol f s
  | .rolI f => Sys2Proof.Machine.execRolI f s
  | .clz f => Sys2Proof.Machine.execClz f s
  | .popc f => Sys2Proof.Machine.execPopc f s
  | .brev f => Sys2Proof.Machine.execBrev f s
  | .bfe f => Sys2Proof.Machine.execBfe f s
  | .bfi f => Sys2Proof.Machine.execBfi f s
  | .sel f => Sys2Proof.Machine.execSel f s
  | .lea f => Sys2Proof.Machine.execLea f s
  | .iaddw f => Sys2Proof.Machine.execIaddw f s
  | .sext f => Sys2Proof.Machine.execSext f s
  | .zext f => Sys2Proof.Machine.execZext f s
  | .mov f => Sys2Proof.Machine.execMov f s
  | .movi f => Sys2Proof.Machine.execMovi f s
  | .movu f => Sys2Proof.Machine.execMovu f s
  | .fadd f => Sys2Proof.Machine.execFadd f s
  | .faddI f => Sys2Proof.Machine.execFaddI f s
  | .fsub f => Sys2Proof.Machine.execFsub f s
  | .fsubI f => Sys2Proof.Machine.execFsubI f s
  | .fmul f => Sys2Proof.Machine.execFmul f s
  | .fmulI f => Sys2Proof.Machine.execFmulI f s
  | .ffma f => Sys2Proof.Machine.execFfma f s
  | .fmin f => Sys2Proof.Machine.execFmin f s
  | .fminI f => Sys2Proof.Machine.execFminI f s
  | .fmax f => Sys2Proof.Machine.execFmax f s
  | .fmaxI f => Sys2Proof.Machine.execFmaxI f s
  | .fcmp f => Sys2Proof.Machine.execFcmp f s
  | .fcmpI f => Sys2Proof.Machine.execFcmpI f s
  | .fclass f => Sys2Proof.Machine.execFclass f s
  | .fscale f => Sys2Proof.Machine.execFscale f s
  | .fscaleI f => Sys2Proof.Machine.execFscaleI f s
  | .frnd f => Sys2Proof.Machine.execFrnd f s
  | .frcp f => Sys2Proof.Machine.execFrcp f s
  | .frsq f => Sys2Proof.Machine.execFrsq f s
  | .fsqrt f => Sys2Proof.Machine.execFsqrt f s
  | .fdiv f => Sys2Proof.Machine.execFdiv f s
  | .fexp2 f => Sys2Proof.Machine.execFexp2 f s
  | .flog2 f => Sys2Proof.Machine.execFlog2 f s
  | .fsin f => Sys2Proof.Machine.execFsin f s
  | .fcos f => Sys2Proof.Machine.execFcos f s
  | .ftanh f => Sys2Proof.Machine.execFtanh f s
  | .hadd2 f => Sys2Proof.Machine.execHadd2 f s
  | .hmul2 f => Sys2Proof.Machine.execHmul2 f s
  | .hfma2 f => Sys2Proof.Machine.execHfma2 f s
  | .hmax2 f => Sys2Proof.Machine.execHmax2 f s
  | .cvt f => Sys2Proof.Machine.execCvt f s
  | .packb f => Sys2Proof.Machine.execPackb f s
  | .unpackb f => Sys2Proof.Machine.execUnpackb f s
  | .pand f => Sys2Proof.Machine.execPand f s
  | .por f => Sys2Proof.Machine.execPor f s
  | .pxor f => Sys2Proof.Machine.execPxor f s
  | .pnot f => Sys2Proof.Machine.execPnot f s
  | .pmov f => Sys2Proof.Machine.execPmov f s
  | .pany f => Sys2Proof.Machine.execPany f s
  | .pall f => Sys2Proof.Machine.execPall f s
  | .bra f => Sys2Proof.Machine.execBra f s
  | .brx f => Sys2Proof.Machine.execBrx f s
  | .call f => Sys2Proof.Machine.execCall f s
  | .exitT f => Sys2Proof.Machine.execExitT f s
  | .ret f => Sys2Proof.Machine.execRet f s
  | .bar f => Sys2Proof.Machine.execBar f s
  | .elect f => Sys2Proof.Machine.execElect f s
  | .vote f => Sys2Proof.Machine.execVote f s
  | .shfl f => Sys2Proof.Machine.execShfl f s
  | .shflI f => Sys2Proof.Machine.execShflI f s
  | .greduce f => Sys2Proof.Machine.execGreduce f s
  | .yield f => Sys2Proof.Machine.execYield f s
  | .sleep f => Sys2Proof.Machine.execSleep f s
  | .nopre f => Sys2Proof.Machine.execNopre f s
  | .preok f => Sys2Proof.Machine.execPreok f s
  | .ld f => Sys2Proof.Machine.execLd f s
  | .st f => Sys2Proof.Machine.execSt f s
  | .ldn f => Sys2Proof.Machine.execLdn f s
  | .stn f => Sys2Proof.Machine.execStn f s
  | .ldu f => Sys2Proof.Machine.execLdu f s
  | .stu f => Sys2Proof.Machine.execStu f s
  | .ldparam f => Sys2Proof.Machine.execLdparam f s
  | .pagereq f => Sys2Proof.Machine.execPagereq f s
  | .atom f => Sys2Proof.Machine.execAtom f s
  | .atomf f => Sys2Proof.Machine.execAtomf f s
  | .red f => Sys2Proof.Machine.execRed f s
  | .fence f => Sys2Proof.Machine.execFence f s
  | .acqr f => Sys2Proof.Machine.execAcqr f s
  | .drainst f => Sys2Proof.Machine.execDrainst f s
  | .qctl f => Sys2Proof.Machine.execQctl f s
  | .pin f => Sys2Proof.Machine.execPin f s
  | .unpin f => Sys2Proof.Machine.execUnpin f s
  | .reclaim f => Sys2Proof.Machine.execReclaim f s
  | .reclwait f => Sys2Proof.Machine.execReclwait f s
  | .snap f => Sys2Proof.Machine.execSnap f s
  | .snapq f => Sys2Proof.Machine.execSnapq f s
  | .copy f => Sys2Proof.Machine.execCopy f s
  | .gcopy f => Sys2Proof.Machine.execGcopy f s
  | .binit f => Sys2Proof.Machine.execBinit f s
  | .binitI f => Sys2Proof.Machine.execBinitI f s
  | .arrive f => Sys2Proof.Machine.execArrive f s
  | .arriveI f => Sys2Proof.Machine.execArriveI f s
  | .waitphase f => Sys2Proof.Machine.execWaitphase f s
  | .waitphaseI f => Sys2Proof.Machine.execWaitphaseI f s
  | .testphase f => Sys2Proof.Machine.execTestphase f s
  | .testphaseI f => Sys2Proof.Machine.execTestphaseI f s
  | .tokwait f => Sys2Proof.Machine.execTokwait f s
  | .tfill f => Sys2Proof.Machine.execTfill f s
  | .tempty f => Sys2Proof.Machine.execTempty f s
  | .twait f => Sys2Proof.Machine.execTwait f s
  | .cretry f => Sys2Proof.Machine.execCretry f s
  | .cskip f => Sys2Proof.Machine.execCskip f s
  | .tres f => Sys2Proof.Machine.execTres f s
  | .trel f => Sys2Proof.Machine.execTrel f s
  | .tload f => Sys2Proof.Machine.execTload f s
  | .mloadw f => Sys2Proof.Machine.execMloadw f s
  | .mloadwI f => Sys2Proof.Machine.execMloadwI f s
  | .mswap f => Sys2Proof.Machine.execMswap f s
  | .mma f => Sys2Proof.Machine.execMma f s
  | .mhad f => Sys2Proof.Machine.execMhad f s
  | .mhadI f => Sys2Proof.Machine.execMhadI f s
  | .mzero f => Sys2Proof.Machine.execMzero f s
  | .mdrain f => Sys2Proof.Machine.execMdrain f s
  | .mread f => Sys2Proof.Machine.execMread f s
  | .scall f => Sys2Proof.Machine.execScall f s
  | .trapI f => Sys2Proof.Machine.execTrapI f s
  | .rte f => Sys2Proof.Machine.execRte f s
  | .getsr f => Sys2Proof.Machine.execGetsr f s
  | .setsr f => Sys2Proof.Machine.execSetsr f s
  | .cntrd f => Sys2Proof.Machine.execCntrd f s
  | .cntrdI f => Sys2Proof.Machine.execCntrdI f s
  | .bkpt f => Sys2Proof.Machine.execBkpt f s
  | .sigrd f => Sys2Proof.Machine.execSigrd f s
  | .haltW f => Sys2Proof.Machine.execHaltW f s
  | .clockRelockDone j => Sys2Proof.Machine.execClockRelockDone j s
  | .rinnorRequestSend port id => Sys2Proof.Machine.execRinnorRequestSend port id s
  | .rinnorResponse port tag => Sys2Proof.Machine.execRinnorResponse port tag s
  | .rinnorTimeout port tag => Sys2Proof.Machine.execRinnorTimeout port tag s
  | .sootrd who sect index => Sys2Proof.Machine.execSootrd who sect index s
  | .eread who subject => Sys2Proof.Machine.execEread who subject s
  | .pframesWrite who p v => Sys2Proof.Machine.execPframesWrite who p v s
  | .trctlWrite who p v => Sys2Proof.Machine.execTrctlWrite who p v s
  | .registerWrite who r v => Sys2Proof.Machine.execRegisterWrite who r v s
  | .alloc src count align fix => Sys2Proof.Machine.execAlloc src count align fix s
  | .freeCall src first count => Sys2Proof.Machine.execFreeCall src first count s
  | .mapCall src va frame size attrs => Sys2Proof.Machine.execMapCall src va frame size attrs s
  | .unmap src va len => Sys2Proof.Machine.execUnmap src va len s
  | .protect src va len rd w xe => Sys2Proof.Machine.execProtect src va len rd w xe s
  | .lazy src va len attrs => Sys2Proof.Machine.execLazy src va len attrs s
  | .query src p va => Sys2Proof.Machine.execQuery src p va s
  | .qbind src kind cw => Sys2Proof.Machine.execQbind src kind cw s
  | .restore src gen va len => Sys2Proof.Machine.execRestore src gen va len s
  | .qopen src cw srcDev srcPart => Sys2Proof.Machine.execQopen src cw srcDev srcPart s
  | .qclose src cw => Sys2Proof.Machine.execQclose src cw s
  | .nvbind src fn cw cq cqLog bell => Sys2Proof.Machine.execNvbind src fn cw cq cqLog bell s
  | .nvfree src cw => Sys2Proof.Machine.execNvfree src cw s
  | .nvfreeAbort space cw => Sys2Proof.Machine.execNvfreeAbort space cw s
  | .salloc src die core count => Sys2Proof.Machine.execSalloc src die core count s
  | .sfree src addr count => Sys2Proof.Machine.execSfree src addr count s
  | .gfree src serial => Sys2Proof.Machine.execGfree src serial s
  | .gmap src serial srcVa dstVa len => Sys2Proof.Machine.execGmap src serial srcVa dstVa len s
  | .callServe space flt => Sys2Proof.Machine.execCallServe space flt s
  | .callReply space tag res => Sys2Proof.Machine.execCallReply space tag res s
  | .callRecordPost gid => Sys2Proof.Machine.execCallRecordPost gid s
  | .pageResolve space page r => Sys2Proof.Machine.execPageResolve space page r s
  | .victimEvict q => Sys2Proof.Machine.execVictimEvict q s
  | .epochScrub frame => Sys2Proof.Machine.execEpochScrub frame s
  | .sectorScrub sector => Sys2Proof.Machine.execSectorScrub sector s
  | .copyAside space page => Sys2Proof.Machine.execCopyAside space page s
  | .drainStart p serial => Sys2Proof.Machine.execDrainStart p serial s
  | .drainDone p serial => Sys2Proof.Machine.execDrainDone p serial s
  | .drainFail p serial => Sys2Proof.Machine.execDrainFail p serial s
  | .drainRetry p serial ok => Sys2Proof.Machine.execDrainRetry p serial ok s
  | .launchAccept space handle => Sys2Proof.Machine.execLaunchAccept space handle s
  | .dispatch die core laneBase => Sys2Proof.Machine.execDispatch die core laneBase s
  | .launchBlocking id => Sys2Proof.Machine.execLaunchBlocking id s
  | .launchEnd id => Sys2Proof.Machine.execLaunchEnd id s
  | .signatureCheck id => Sys2Proof.Machine.execSignatureCheck id s
  | .sliceEnd space core => Sys2Proof.Machine.execSliceEnd space core s
  | .partitionHalt space core => Sys2Proof.Machine.execPartitionHalt space core s
  | .groupResume space core sealOk => Sys2Proof.Machine.execGroupResume space core sealOk s
  | .nopreExpiry gid => Sys2Proof.Machine.execNopreExpiry gid s
  | .infieldTest cluster => Sys2Proof.Machine.execInfieldTest cluster s
  | .infieldTestDone cluster pass => Sys2Proof.Machine.execInfieldTestDone cluster pass s
  | .uncorrectableError id => Sys2Proof.Machine.execUncorrectableError id s
  | .reportDelivery tid => Sys2Proof.Machine.execReportDelivery tid s
  | .loadFill id => Sys2Proof.Machine.execLoadFill id s
  | .storeResolve id => Sys2Proof.Machine.execStoreResolve id s
  | .packetAppend space handle => Sys2Proof.Machine.execPacketAppend space handle s
  | .networkSend space handle accepted => Sys2Proof.Machine.execNetworkSend space handle accepted s
  | .networkReceive handle srcDev srcPart space entry => Sys2Proof.Machine.execNetworkReceive handle srcDev srcPart space entry s
  | .collectiveStart id => Sys2Proof.Machine.execCollectiveStart id s
  | .elementLanding id k => Sys2Proof.Machine.execElementLanding id k s
  | .copyFaultReport id => Sys2Proof.Machine.execCopyFaultReport id s
  | .matrixOpExecute core checkOk => Sys2Proof.Machine.execMatrixOpExecute core checkOk s
  | .pinSearchDone id => Sys2Proof.Machine.execPinSearchDone id s
  | .reclaimResearch space name => Sys2Proof.Machine.execReclaimResearch space name s
  | .reclaimCompletionPost space name => Sys2Proof.Machine.execReclaimCompletionPost space name s
  | .sleepWake tid => Sys2Proof.Machine.execSleepWake tid s
  | .yieldReady tid => Sys2Proof.Machine.execYieldReady tid s
  | .sigrdReportDone tid => Sys2Proof.Machine.execSigrdReportDone tid s
  | .energyInterval island row amount => Sys2Proof.Machine.execEnergyInterval island row amount s
  | .sootUpdate => Sys2Proof.Machine.execSootUpdate s
  | .traceLoss p => Sys2Proof.Machine.execTraceLoss p s
  | .linkRetrainDone k => Sys2Proof.Machine.execLinkRetrainDone k s
  | .powerLoss => Sys2Proof.Machine.execPowerLoss s
  | .partitionCreate p => Sys2Proof.Machine.execPartitionCreate p s
  | .migrationFailureReport p => Sys2Proof.Machine.execMigrationFailureReport p s
  | .powerOn passed => Sys2Proof.Machine.execPowerOn passed s
  | .deviceReset passed => Sys2Proof.Machine.execDeviceReset passed s
  | .stageHostAttach => Sys2Proof.Machine.execStageHostAttach s
  | .stageEmber => Sys2Proof.Machine.execStageEmber s
  | .stackTrainingFail d => Sys2Proof.Machine.execStackTrainingFail d s
  | .stageFullCompute => Sys2Proof.Machine.execStageFullCompute s
  | .stageFullService fns => Sys2Proof.Machine.execStageFullService fns s
  | .thermalRise j => Sys2Proof.Machine.execThermalRise j s
  | .thermalFall j => Sys2Proof.Machine.execThermalFall j s
  | .islopWrite who j v => Sys2Proof.Machine.execIslopWrite who j v s
  | .linkFlitRetry k => Sys2Proof.Machine.execLinkFlitRetry k s
  | .linkRateDrop k margin => Sys2Proof.Machine.execLinkRateDrop k margin s
  | .linkUpreq who k pass => Sys2Proof.Machine.execLinkUpreq who k pass s
  | .linkDown k => Sys2Proof.Machine.execLinkDown k s
  | .hostRequest window r => Sys2Proof.Machine.execHostRequest window r s
  | .storageInboundRequest fn r => Sys2Proof.Machine.execStorageInboundRequest fn r s
  | .sessionOpen who window sigOk key nonce => Sys2Proof.Machine.execSessionOpen who window sigOk key nonce s
  | .sessionMessage window tagOk => Sys2Proof.Machine.execSessionMessage window tagOk s
  | .attestationRequest who subject nonce => Sys2Proof.Machine.execAttestationRequest who subject nonce s
  | .notices who count => Sys2Proof.Machine.execNotices who count s
  | .resetPart who p => Sys2Proof.Machine.execResetPart who p s
  | .migrate who p chainOk digestsEqual => Sys2Proof.Machine.execMigrate who p chainOk digestsEqual s
  | .migrationFreeze p => Sys2Proof.Machine.execMigrationFreeze p s
  | .migrationArrival k sigOk => Sys2Proof.Machine.execMigrationArrival k sigOk s
  | .postCopyPull p page data digestOk => Sys2Proof.Machine.execPostCopyPull p page data digestOk s
  | .postCopyPullFail p => Sys2Proof.Machine.execPostCopyPullFail p s
  | .preempt who p core => Sys2Proof.Machine.execPreempt who p core s
  | .kindlingRebind who core qset => Sys2Proof.Machine.execKindlingRebind who core qset s
  | .ownershipQuery who frame => Sys2Proof.Machine.execOwnershipQuery who frame s
  | .regrd who die core slot cls thread number => Sys2Proof.Machine.execRegrd who die core slot cls thread number s
  | .regwr who die core slot cls thread number v => Sys2Proof.Machine.execRegwr who die core slot cls thread number v s
  | .stopWg who die core slot addr len => Sys2Proof.Machine.execStopWg who die core slot addr len s
  | .resumeWg who die core slot => Sys2Proof.Machine.execResumeWg who die core slot s

end Sys2Proof.Machine
end

