-- ==== Sys2Proof/Machine/Outside.lean ====
section
/-! DEFINITION. What reaches the device from outside, or happens in it, beside the rows of the opcode table: register reads, the life of a
session, client windows, the state of links, and the course of a migration. -/
namespace Sys2Proof.Machine

/-- The authority that a command of `Outside` carries (R48). -/
def Outside.who : Outside → Option Who
  | .readReg who _ | .readCount who _ | .unknown who | .chain who => some who
  | .progress _ => some .operator
  | _ => none
/-- What happens (R8, R40, R42, R45, R46, R48, R49, R52, R56, R60, R66, R68, R69, R96, R99). -/
def execOutside (d : Outside) (s : State) : State :=
  match d with
  | .readReg who r => s.readCmd who r
  | .readCount who n => s.readCount who n.toNat
  | .scrubbed index corrected found => ((s.sootAdd 1 index.val 0 corrected (2 ^ 64 - 1)).sootAdd 1 index.val 1 found (2 ^ 64 - 1)).sootAdd
      1 index.val 2 1 (2 ^ 64 - 1)
  | .temperature island bin => s.sootAdd 3 island.val (6 + bin.val) 1 (2 ^ 64 - 1)
  | .stackTrained d => s.stackTrained d.val
  | .copyBad p serial page => s.updGen p serial (fun g => { g with bad := insertAsc page g.bad })
  | .verify core lane triple => { s with verify := s.verify.put core.val { lane := lane.val, triple := triple } }
  | .unknown who => s.answer who 6
  | .challenge w => s.challenge w
  | .closeSession w => s.closeSession w
  | .bindWindow w space port => s.bindWindow w space port.val
  | .chain who => s.answer who 0 [] Config.chain
  | .corrected k n => s.corrected k.val n
  | .eye k lane margin => s.eyeMargin k.val lane.val margin.toNat
  | .rootRate rate => s.rootRate rate.val
  | .rootL1 on => s.rootL1 on
  | .precopy p page => s.precopy p page
  | .progress p => s.progress p
  | .pulled p => s.pulled p
  | .lastPulled p => s.lastPulled p
  | .abandoned p => s.abandoned p
  | .arrivalBad k => s.arrival k true
  | .arrivalAgain k => s.arrival k false
  | .pullBad p page => s.pullBad p page
  | .tier up => { s with pkg.tierUp := up }

end Sys2Proof.Machine
end

