-- ==== Sys2Proof/Machine/Run.lean ====
section
/-! DEFINITION. One act of the package: which act comes next (log 3), what an act does, and the placement of one instruction
where a step fetches it. -/
namespace Sys2Proof.Machine

/-- Events that the device itself may perform, in the order in which an empty agenda tries them (log 3). -/
def State.ownEvents (s : State) : List Instr :=
  s.stores.map (fun e => Instr.storeResolve e.1) ++
  s.stores.map (fun e => Instr.copyAside e.2.space (e.2.va / frameBytes)) ++
  s.fills.flatMap (fun e => match e.2.what with
    | .atom pa .. => if s.needsAside (s.spaceOf e.2.tid) pa then
        ((frameOf pa).toList.flatMap s.pageOfFrame).map (fun q => Instr.copyAside q.1 q.2) else []
    | _ => []) ++
  s.fills.map (fun e => Instr.loadFill e.1) ++
  s.threads.flatMap (fun e => match e.2.st with
    | .waiting (.sleep _) => [Instr.sleepWake e.1]
    | .waiting (.yield _) => [Instr.yieldReady e.1]
    | .waiting .report => [Instr.sigrdReportDone e.1]
    | .waiting (.callRing _) => [Instr.callRecordPost (gidOf e.1)]
    | _ => []) ++
  s.matq.map (fun e => Instr.matrixOpExecute e.1 true) ++
  s.tloads.flatMap (fun e => match e.2.left with | r :: _ => [Instr.elementLanding e.1 r.1] | [] => []) ++
  s.colls.flatMap (fun e =>
    Instr.collectiveStart e.1 :: ((e.2.slices.findSome? (fun x => x.left.head?.map (fun r => Instr.elementLanding e.1 r.1))).toList ++
      [Instr.copyFaultReport e.1])) ++
  s.searches.map (fun e => Instr.pinSearchDone e.1) ++
  s.parts.flatMap (fun e => e.2.reclaims.flatMap (fun r =>
    [Instr.reclaimResearch e.1 r.1, Instr.reclaimCompletionPost e.1 r.1])) ++
  s.pkg.islands.flatMap (fun e => if h : e.2.relock ∧ e.1 < 40 then [Instr.clockRelockDone ⟨e.1, h.2⟩] else []) ++
  s.queues.flatMap (fun e => if e.2.kind = 1 && e.2.count != 0 then [Instr.launchAccept (e.1 / 65536) (e.1 % 65536)]
    else if e.2.waiting != [] then [Instr.packetAppend (e.1 / 65536) (e.1 % 65536)] else []) ++
  s.launches.flatMap (fun e => [Instr.launchEnd e.1, Instr.signatureCheck e.1]) ++
  s.slices.flatMap (fun e => [Instr.sliceEnd (e.1 / 256) (e.1 % 256), Instr.partitionHalt (e.1 / 256) (e.1 % 256)]) ++
  s.groups.filterMap (fun e => if e.2.hold.isSome then some (Instr.nopreExpiry e.1) else none) ++
  s.pkg.tests.filterMap (fun c => if h : c < 32 then (if s.pkg.testing.contains c then none else some (Instr.infieldTest ⟨c, h⟩)) else none) ++
  s.launches.filterMap (fun e => if e.2.unfit.isSome then some (Instr.launchBlocking e.1) else none) ++
  (if s.launches.any (fun e => e.2.phase == .eligible || (e.2.phase == .running && e.2.next < e.2.record.instances)) then
    (upTo 4).flatMap (fun d => (upTo 64).map (fun c => Instr.dispatch d c 0)) else []) ++
  s.groups.filterMap (fun e => if e.2.halted then some (Instr.groupResume e.2.space (coreOf e.1) true) else none)

/-- The entry that a core which runs selects next: of those that may be selected, on every core, the one with the oldest thread
(R141). -/
def State.oldestReady (s : State) : Option Act :=
  let cores := ((s.groups.map (fun e => coreOf e.1)).eraseDups).filter s.coreRuns
  let found := cores.flatMap (fun c =>
    let s := s.joinGrate c
    ((s.grates.getD c []).filter (s.selectable c)).map (fun e => (s.entAge e, Act.issue c e.addr e.space)))
  (found.foldl (fun (m : Option (Nat × Act)) e => match m with
    | some x => if e.1 < x.1 then some e else some x
    | none => some e) none).map (·.2)

/-- Whether an event has moved the device. A visit of a Flue that only adds to its deficits has, while some deficit is too small
for the largest instance, the 262,144 threads of a die (R132). -/
def State.moves (s s' : State) : Bool :=
  decide ({ s' with flues := s.flues } ≠ s) ||
    (decide (s' ≠ s) && s'.flues.all (fun f => f.2.deficit.all (fun e => e.2 < 2 ^ 18)))
/-- What an empty agenda does next: the first event of the device that moves it, else the oldest ready thread, else a tick
(log 3). -/
def State.idleAct (s : State) : Act :=
  match s.ownEvents.find? (fun i => match exec i s with | .next s' => s.moves s' | _ => false) with
  | some i => .ev i
  | none => s.oldestReady.getD (.elapse 1)

/-- Selections for full detail (R305): of the groups of a partition on a core, where none is selected, the one in the lowest slot that
satisfies every enabled comparison. -/
def State.settleTrace (s : State) : State :=
  s.groups.foldl (fun s e => if s.selected (coreOf e.1) e.2.space = some e.1 then s.select e.1 else s) s
/-- Scratchpad frames that nothing uses any longer are freed once no access to them is in flight (R91, R175). -/
def State.freeLate (s : State) : State :=
  (((s.own.filter (fun e => dramFrames ≤ e.1 && e.2.owner ≤ 64)).map (fun e => e.2.owner)).eraseDups).foldl (fun s p => s.freeScratch p) s
/-- What is due after an act: halts that nothing keeps waiting (R150), stops (R308), resets (R63), windows whose pages have resolved
(R121), frames to be freed (R91), selections for traces (R305). -/
def State.due (s : State) : State :=
  let s := s.settle
  let s := if s.parts.any (fun e => e.2.sealed) then s.dueResets else s
  let s := if s.launches.any (fun e => e.2.phase == .reading) then s.readLate else s
  let s := s.freeLate
  if s.parts.any (fun e => e.2.trctl.getLsbD 63) then s.settleTrace else s
/-- What is due after an act is due once a pair that has begun is over: it issues in one cycle (R140). -/
def State.afterAct (s : State) : State :=
  match s.agenda with
  | .pair .. :: _ => s
  | _ => s.due
/-- The outcome of an event, with its work counted (R311) and what is due after it. -/
def settled (pre : State) (i : Instr) (o : Host.Outcome State Fault Refusal) : Host.Outcome State Fault Refusal :=
  match o with
  | .next s => .next (s.worked pre i).afterAct
  | .fault f => .fault f
  | .refused r => .refused r
/-- The instruction in the second slot of a pair, as it would meet the lanes at its first (R323). -/
def State.pairStalls (s : State) : Option Nat :=
  if !s.cur.first then none
  else
    let c := s.cur
    let next := nextAddr c.pc
    match s.instrAt c.core c.space next with
    | none => none
    | some j =>
      let at' := c.lanes.foldl (fun s t => s.updThread t (fun x => { x with pc := next }))
        { s with cur := { c with pc := next, first := false, raw := (match s.fetch c.core c.space next.toNat next.toNat with
                                                          | .line b => slotWord b (slotOf next) | _ => 0) } }
      match exec j at' with
      | .next u => c.lanes.findSome? (fun t => match (u.thread t).st with | .waiting (.pipe k) => some k | _ => none)
      | _ => none
/-- A verified issue whose three results all differ in a lane (R294): nothing of it is written in any lane, and the thread of the lane, where
it acts, consumes the error. -/
def State.tripled (s : State) : Option Nat :=
  match s.verify.find s.cur.core with
  | some v => if v.triple ∧ pipeOf s.cur.raw = .v then
      s.cur.lanes.find? (fun t => s.laneOf t == v.lane && s.guardOn (decHeader s.cur.raw) t) else none
  | none => none
/-- A verified issue is counted in the Soot record, and its disagreement is over (R294, R310). -/
def State.verified (s : State) (core : Nat) (issued : Bool) : State :=
  match s.verify.find core with
  | some v => if !issued then s
    else ({ s with verify := s.verify.erase core }).sootAdd 0 (core * 16 + v.lane / 4) (2 * (v.lane % 4) + bit v.triple) 1 (2 ^ 64 - 1)
  | none => s
/-- Runs what an issue has decoded: a pair whose second pipe refuses waits whole (R140); otherwise the instruction runs, and its issue slots
are counted with the lanes that issued (R302). -/
def runIssue (x : Option Instr × State) : Host.Outcome State Fault Refusal :=
  match x.1 with
  | none => .next x.2.afterAct
  | some i =>
    let pre := x.2
    let vector := pipeOf pre.cur.raw == .v
    match pre.pairStalls with
    | some k => .next (pre.cur.lanes.foldl (fun (s : State) t => s.toWait t (.pipe k)) { pre with agenda := pre.agenda.tail }).due
    | none =>
      match (match pre.tripled with | some t => Host.Outcome.next (pre.consumeAt t) | none => exec i pre) with
      | .next s =>
        let lanes := pre.issuedLanes s
        .next ((s.countIssue pre lanes vector).verified pre.cur.core (vector && lanes != [])).afterAct
      | .fault f => .fault f
      | .refused r => .refused r

/-- The authority that a command carries (R48). -/
def CallSrc.who : CallSrc → Option Who
  | .session who => some who
  | .call .. => none
def Instr.who : Instr → Option Who
  | .sootrd who _ _ | .eread who _ | .pframesWrite who _ _ | .trctlWrite who _ _ | .registerWrite who _ _ | .islopWrite who _ _
  | .linkUpreq who _ _ | .attestationRequest who _ _ | .notices who _ | .resetPart who _ | .migrate who _ _ _ | .preempt who _ _
  | .kindlingRebind who _ _ | .ownershipQuery who _ | .regrd who _ _ _ _ _ _ | .regwr who _ _ _ _ _ _ _ | .stopWg who _ _ _ _ _
  | .resumeWg who _ _ _ => some who
  | .alloc src _ _ _ | .freeCall src _ _ | .mapCall src _ _ _ _ | .unmap src _ _ | .protect src _ _ _ _ _ | .lazy src _ _ _
  | .query src _ _ | .qbind src _ _ | .restore src _ _ _ | .qopen src _ _ _ | .qclose src _ | .nvbind src _ _ _ _ _ | .nvfree src _
  | .salloc src _ _ _ | .sfree src _ _ | .gfree src _ | .gmap src _ _ _ _ => CallSrc.who src
  | _ => none
/-- A command comes by a session of its authority, and the command interface is closed in stage 0 (R34, R48). -/
def State.admits (s : State) (who : Option Who) : Bool :=
  match who with
  | some w => s.pkg.stage != 0 && s.inSession w
  | none => true
/-- One act. An instruction of a program is no event of the device, and a command that no session carries does not reach it. -/
def State.act (s : State) (a : Act) : Host.Outcome State Fault Refusal :=
  match a with
  | .ev i => if i.parts.isSome || !s.admits (Instr.who i) then .next s else settled s i (exec i s)
  | .dev d => if s.admits d.who then .next (execOutside d s).due else .next s
  | .issue core addr space => runIssue (s.issue core space addr)
  | .pair core addr space lanes => runIssue (s.issuePair core space addr lanes)
  | .elapse n => .next (s.elapse n).due
/-- One step: the first act of the agenda, or what comes next by itself. Without a supply nothing happens but POWER_ON, and with
nothing left on the agenda the package stands still for good (R34, R310). -/
def State.advance (s : State) : Host.Outcome State Fault Refusal :=
  match s.agenda with
  | a :: rest =>
    let s := { s with agenda := rest }
    if s.pkg.supply then s.act a
    else match a with
      | .ev (.powerOn p) => s.act (.ev (.powerOn p))
      | _ => .next s
  | [] => if s.pkg.supply then s.act s.idleAct else .fault .unpowered

/-! ## One instruction where a step fetches it -/

/-- The bytes of a code line whose slot 0 holds a word, marked as a target, with its parity (R315, R316). -/
def lineWith (w : Nat) : List Byte :=
  let odd := (upTo 96).countP (fun i => w.testBit i) % 2
  toLE 12 w ++ toLE 48 0 ++ toLE 4 (1 + 32 * odd)
/-- A launch of one group that declares every register (R114). -/
def fetchLaunch : Launch :=
  { space := 0, seq := 0, handle := 0, die := 0,
    record := { LRec.blank with nlev := 3, gwidth := 8, domains := [0], exts := [1], opbuf := 64, vgran := 32, ggran := 16, tregs := 16,
                                accs := 8, pclass := true, pinclass := true, auth := 1, authPart := 0,
                                wins := List.replicate 8 (some (32, 0)) },
    phase := .running, next := 1 }
/-- Partition 0 is live with one page at address 0 on frame 0 whose first line holds the word in slot 0, and one thread of one
group in slot 0 of core 0 of die 0 stands there; the next act issues it (log 5). -/
def State.placeWord (s : State) (w : Nat) : State :=
  let p := s.part 0
  { s with
    pkg.supply := true,
    pkg.islands := s.pkg.islands.erase 0,
    parts := s.parts.put 0 { p with live := true },
    own := s.own.put 0 { owner := 0, epoch := p.epoch.toNat % 16, fix := true, maps := 1 },
    pages := s.pages.put 0 { valid := true, fix := true, reach := 2, owner := 0, xe := true, w := true, rd := true },
    poison := s.poison.filter (fun k => 2 ≤ k),
    launches := s.launches.put 0 fetchLaunch,
    groups := s.groups.put 0 { space := 0, launch := 0, inst := 0, levels := [0, 0, 0, 0, 0, 0, 0], gidx := 0, width := 8, laneBase := 0,
                               scrBase := BitVec.ofNat 56 flatBase },
    threads := (Tab.keep s.threads (fun k _ => 64 ≤ k)).put 0 { pc := 0 },
    grates := s.grates.erase 0,
    tables := (s.makeTables 0 0 0).tables,
    mem := (({ s with mem := Tab.keep s.mem (fun a _ => 64 ≤ a) }).wrBytes 0 (lineWith w)).mem,
    agenda := [.issue 0 0 0] }

end Sys2Proof.Machine
end

