-- ==== Sys2Proof/Machine/Step.lean ====
section
/-! DEFINITION. The step of the machine. -/
namespace Sys2Proof.Machine

/-- One step (log 3). -/
def step (s : State) : Host.Outcome State Fault Refusal := s.advance

/-- `s` with an instruction whose bits are `w`, numbered as spec/opcode_table.json numbers them, where `step` fetches next; the
bits above `nbits` are 0 (R324, log 5). -/
def State.withFetchWord (s : State) (nbits w : Nat) : State := s.placeWord (w % 2 ^ nbits % 2 ^ 96)

end Sys2Proof.Machine
end

