-- ==== Sys2Proof/Safety.lean ====
section
/-! DEFINITION. What counts as a safe run: a step that answers a next state, and a state whose memory is in canonical form. -/
namespace Sys2Proof

open Machine

/-- A step that neither faults nor is refused. -/
def Safe (s : State) : Prop := ∃ s', step s = .next s'

/-- The invariant of memory: its cells are in canonical form, so that equal memories are equal data. -/
def MemInv (s : State) : Prop := Memory.wf s.mem = true

end Sys2Proof
end

