-- ==== Sys2Proof/Certificates/Slice0/Obligations.lean ====
section
/-! DEFINITION. The statements for the provers. `Sys2Proof.Spec` holds the words they are written in; `Obligations` the
statements themselves. -/
namespace Sys2Proof.Spec

open Machine

/-! ## The issue group -/

/-- Lane `l` can take part in an instruction: its thread is there, the registers it names are declared, and its guard register is
full, and a launch's first entry stands at a target (R317); and where the guard passes, no register that the instruction names is empty, no parameter window that it reads is unbound, and the
token that it arms, if any, is idle (R22). -/
def fit (u : Uses) (s : State) (l : Nat) : Bool :=
  (s.threads.find l).isSome && !s.undeclared u l && s.entryTrap l == none && (regsOf l (.p u.h.guard) 1).all (fun r => !s.isEmpty r) &&
  (!s.guardOn u.h l || (s.blocking u l == [] && s.unbound u l == none && s.emptyRead u l == none && s.armWait u.h l == none))
/-- The lanes of the issue group stand in ascending order within each group (R139), and all of them can take part. -/
def ready (u : Uses) (s : State) : Bool :=
  decide (s.cur.lanes.Pairwise (fun a b => gidOf a = gidOf b → a < b)) && s.cur.lanes.all (fit u s)
/-- Lane `l` of the issue group acts: its guard passes (R17). -/
def acts (u : Uses) (s : State) (l : Nat) : Bool := s.cur.lanes.contains l && s.guardOn u.h l
/-- Lane `l` acts and what it writes to `d` stands: a uniform, tile or pin register takes the value of the highest acting lane of its
group (R158). -/
def stands (u : Uses) (d : Operand) (s : State) (l : Nat) : Bool :=
  acts u s l && (d.isV || d.isP || s.cur.lanes.all (fun m => !(s.guardOn u.h m && gidOf m == gidOf l) || m ≤ l))

/-- A queue of a space that takes one entry now: not full, its pages in place, and a frame for each shared granule that the append writes
(R38, R101, R185). -/
def room (s : State) (space : Nat) (q : Queue) : Bool :=
  !q.full && s.queueSound space q && (s.asideFor space [q.cw, q.entryVa q.tail, q.entryVa q.tail + 32 * q.esize - 1]).isSome

/-- What lane `l` reads of a source at width `w` (R157, R343). -/
def src (s : State) (w l : Nat) (o : Operand) : BitVec w :=
  if w = 64 then (s.src64 l o).setWidth w else (s.src32 l o).setWidth w
/-- `t` holds the results `r` of an instruction at width 64 or 32, in the destination of every lane whose result stands; a 32-bit
result is zero-extended in a uniform register (R157). -/
def Written (u : Uses) (d : Operand) (wide : Bool) (s t : State) (r : (w : Nat) → Nat → BitVec w) : Prop :=
  ∀ l, stands u d s l = true →
    (wide = true → t.src64 l d = r 64 l) ∧
    (wide = false → t.src32 l d = r 32 l ∧ (d.isG = true → t.src64 l d = (r 32 l).setWidth 64))
/-- `t` holds the bytes `r` in the predicate `d` of every acting lane; p0 reads 0xFF and takes nothing (R156). -/
def WrittenP (u : Uses) (d : Operand) (s t : State) (r : Nat → Byte) : Prop :=
  ∀ l, stands u d s l = true → ∀ n, d = .p n → t.getP l n.toNat = if n = 0 then 0xFF else r l
/-- The byte of a test: bit 0, and bits [7:1] clear (R159). -/
def test (b : Bool) : Byte := if b then 1 else 0

/-! ## Integer arithmetic on bit vectors (R345 to R349) -/

/-- An exact result narrowed to `w` bits, clamped to the signed range under `.sat` (R345). -/
def clamp (w : Nat) (sat : Bool) (z : Int) : BitVec w :=
  BitVec.ofInt w (if sat then max (-(2 ^ (w - 1))) (min (2 ^ (w - 1) - 1) z) else z)
def mulHigh (sel : BitVec 4) (w : Nat) (a b : BitVec w) : BitVec w :=
  if sel = 0 then BitVec.ofInt w (a.toInt * b.toInt / 2 ^ w) else BitVec.ofNat w (a.toNat * b.toNat / 2 ^ w)
def less (sel : BitVec 4) (w : Nat) (a b : BitVec w) : Bool := if sel = 0 then a.slt b else a.ult b
/-- Two-source instructions of R345 by their effects. -/
def two (sat : Bool) (sel : BitVec 4) : List ((w : Nat) → BitVec w → BitVec w → BitVec w) :=
  [fun w a b => clamp w sat (a.toInt + b.toInt), fun w a b => clamp w sat (a.toInt - b.toInt), fun _ a b => a * b, mulHigh sel,
   fun w a b => if less sel w a b then a else b, fun w a b => if less sel w a b then b else a, fun _ a b => a &&& b,
   fun _ a b => a ||| b, fun _ a b => a ^^^ b, fun _ a b => a &&& ~~~b, fun _ a b => a <<< b.toNat, fun _ a b => a >>> b.toNat,
   fun _ a b => a.sshiftRight b.toNat, fun w a b => a.rotateLeft (b.toNat % w)]
def leading (w : Nat) (a : BitVec w) : BitVec w := BitVec.ofNat w ((List.range w).countP (fun i => a.toNat < 2 ^ i))
def ones (w : Nat) (a : BitVec w) : BitVec w := BitVec.ofNat w ((List.range w).countP (fun i => a.getLsbD i))
/-- The width m of SEXT and ZEXT (R349). -/
def extend (sel : BitVec 4) : Nat := [8, 16, 4, 1, 32].getD sel.toNat 32
/-- BFE (R348). -/
def extract (sel : BitVec 4) (w : Nat) (a b c : BitVec w) : BitVec w :=
  if w ≤ b.toNat ∨ c.toNat = 0 then 0
  else
    let x := (a >>> b.toNat).setWidth (min c.toNat (w - b.toNat))
    if sel = 0 then x.signExtend w else x.setWidth w
/-- BFI (R348). -/
def insert (w : Nat) (a b c : BitVec w) : BitVec w :=
  let pos := b.toNat % 256
  let len := min (b.toNat / 256 % 256) (w - pos)
  let m : BitVec w := (BitVec.ofNat w (2 ^ len - 1)) <<< pos
  if w ≤ pos then c else (c &&& ~~~m) ||| ((a <<< pos) &&& m)
/-- The integer conditions of R330, by SEL code 0 to 9. -/
def compare (sel : BitVec 4) (w : Nat) (a b : BitVec w) : Bool :=
  [a == b, a != b, a.slt b, a.sle b, b.slt a, b.sle a, a.ult b, a.ule b, b.ult a, b.ule a].getD sel.toNat false

/-! ## FP32 bit patterns (R330, R375 to R377) -/

def nan (x : BitVec 32) : Bool := decide (0x7F800000 < x.toNat % 2 ^ 31)
/-- The place of a bit pattern that is no NaN in the order of R375, -0 below +0. -/
def place (x : BitVec 32) : Int := if x.msb then -(x.toNat % 2 ^ 31 : Nat) - 1 else (x.toNat : Int)
/-- FMIN, or FMAX with `most` (R375). -/
def pick (most : Bool) (a b : BitVec 32) : BitVec 32 :=
  if nan a ∧ nan b then 0x7FC00000 else if nan a then b else if nan b then a
  else if decide (place a < place b) = most then b else a
/-- The float conditions of R330, by SEL code 0 to 11; -0 equals +0. -/
def floatCompare (sel : BitVec 4) (a b : BitVec 32) : Bool :=
  let v := fun (x : BitVec 32) => if x.toNat % 2 ^ 31 = 0 then (0 : Int) else place x
  let ok := !nan a && !nan b
  [ok && v a == v b, !(ok && v a == v b), ok && decide (v a < v b), ok && decide (v a ≤ v b), ok && decide (v b < v a),
   ok && decide (v b ≤ v a), false, false, false, false, ok, !ok].getD sel.toNat false
/-- The classes of R377, bit 0 first, and their mask. -/
def classes (x : BitVec 32) : List Bool :=
  let m := x.toNat % 2 ^ 31
  let normal := decide (0x00800000 ≤ m ∧ m < 0x7F800000)
  let small := decide (0 < m ∧ m < 0x00800000)
  [x.msb && m == 0x7F800000, x.msb && normal, x.msb && small, x.msb && m == 0, !x.msb && m == 0, !x.msb && small, !x.msb && normal,
   !x.msb && m == 0x7F800000, nan x && !x.getLsbD 22, nan x && x.getLsbD 22]
def classMask (x : BitVec 32) : Nat := ((classes x).zipIdx.map (fun e => if e.1 then 2 ^ e.2 else 0)).sum
/-- What an instruction encodes to raises ILLEGAL_FIELD (R335). -/
def illegal (i : Instr) : Prop := ∀ w, encode i = some w → decode w.toNat = .error .illegalField

/-- The instructions that write registers from registers alone, each in its own lanes (opcodes 0x001 to 0x106, except what the
control and group instructions do), and NOP. -/
def registerOnly : Instr → Bool
  | .nop _ | .iadd _ | .iaddI _ | .isub _ | .isubI _ | .imul _ | .imulI _ | .imulh _ | .imulhI _ | .imad _ | .iaddc _ | .imin _
  | .iminI _ | .imax _ | .imaxI _ | .iabs _ | .ineg _ | .icmp _ | .icmpI _ | .andB _ | .andBI _ | .orB _ | .orBI _ | .xorB _
  | .xorBI _ | .andnB _ | .andnBI _ | .notB _ | .shl _ | .shlI _ | .shr _ | .shrI _ | .sar _ | .sarI _ | .rol _ | .rolI _
  | .clz _ | .popc _ | .brev _ | .bfe _ | .bfi _ | .sel _ | .lea _ | .iaddw _ | .sext _ | .zext _ | .mov _ | .movi _ | .movu _
  | .fadd _ | .faddI _ | .fsub _ | .fsubI _ | .fmul _ | .fmulI _ | .ffma _ | .fmin _ | .fminI _ | .fmax _ | .fmaxI _ | .fcmp _
  | .fcmpI _ | .fclass _ | .fscale _ | .fscaleI _ | .frnd _ | .frcp _ | .frsq _ | .fsqrt _ | .fdiv _ | .fexp2 _ | .flog2 _
  | .fsin _ | .fcos _ | .ftanh _ | .hadd2 _ | .hmul2 _ | .hfma2 _ | .hmax2 _ | .cvt _ | .packb _ | .unpackb _ | .pand _ | .por _
  | .pxor _ | .pnot _ | .pmov _ | .pany _ | .pall _ => true
  | _ => false

end Sys2Proof.Spec

open Sys2Proof Sys2Proof.Machine

/-! ## Integer instructions (R342 to R354) -/

/-- R327, R345, R158: the two-source integer instructions write their effect at width W, for every operand form; in the immediate forms the
immediate is sign-extended to width W. -/
def Obligations.IntegerTwoSources : Prop :=
  (∀ (f : VForm) (s : State),
  ∀ x ∈ [Instr.iadd f, .isub f, .imul f, .imulh f, .imin f, .imax f, .andB f, .orB f, .xorB f, .andnB f, .shl f, .shr f, .sar f,
      .rol f].zip (Spec.two f.sat f.sel),
    x.1.wf = true → Spec.ready x.1.uses s = true →
    ∃ t, exec x.1 s = .next t ∧
      Spec.Written x.1.uses f.d f.wide s t (fun w l => x.2 w (Spec.src s w l f.a) (Spec.src s w l f.b))) ∧
  (∀ (f : IForm) (s : State),
  ∀ x ∈ [Instr.iaddI f, .isubI f, .imulI f, .imulhI f, .iminI f, .imaxI f, .andBI f, .orBI f, .xorBI f, .andnBI f, .shlI f, .shrI f,
      .sarI f, .rolI f].zip (Spec.two f.sat f.sel),
    x.1.wf = true → Spec.ready x.1.uses s = true →
    ∃ t, exec x.1 s = .next t ∧
      Spec.Written x.1.uses f.d f.wide s t (fun w l => x.2 w (Spec.src s w l f.a) (f.imm.signExtend w)))

/-- R345, R349, R351: the one-source integer instructions. -/
def Obligations.IntegerOneSource : Prop :=
  ∀ (f : VForm) (s : State),
  ∀ x ∈ ([(.iabs f, fun w a => Spec.clamp w f.sat (a.toInt.natAbs : Int)), (.ineg f, fun w a => Spec.clamp w f.sat (-a.toInt)),
      (.notB f, fun _ a => ~~~a), (.clz f, Spec.leading), (.popc f, Spec.ones), (.brev f, fun _ a => a.reverse),
      (.sext f, fun w a => (a.setWidth (Spec.extend f.sel)).signExtend w),
      (.zext f, fun w a => (a.setWidth (Spec.extend f.sel)).setWidth w), (.mov f, fun _ a => a)] :
      List (Instr × ((w : Nat) → BitVec w → BitVec w))),
    x.1.wf = true → Spec.ready x.1.uses s = true →
    ∃ t, exec x.1 s = .next t ∧ Spec.Written x.1.uses f.d f.wide s t (fun w l => x.2 w (Spec.src s w l f.a))

/-- R345 to R348, R350: IMAD, BFE, BFI and SEL; IADDC writes the sum with the carry in, and the unsigned carry out; ICMP compares at the width
that its source A gives. IADDC and SEL without a predicate C, and ICMP without a predicate D or of codes 10 to 15, are ILLEGAL_FIELD. -/
def Obligations.IntegerCarriesAndCompares : Prop :=
  (∀ (f : VForm) (s : State),
  (∀ x ∈ ([(.imad f, fun _ a b c => a * b + c), (.bfe f, Spec.extract f.sel), (.bfi f, Spec.insert)] :
      List (Instr × ((w : Nat) → BitVec w → BitVec w → BitVec w → BitVec w))),
    x.1.wf = true → Spec.ready x.1.uses s = true →
    ∃ t, exec x.1 s = .next t ∧
      Spec.Written x.1.uses f.d f.wide s t (fun w l => x.2 w (Spec.src s w l f.a) (Spec.src s w l f.b) (Spec.src s w l f.c))) ∧
  ((Instr.sel f).wf = true → Spec.ready (Instr.sel f).uses s = true →
    ∃ t, exec (.sel f) s = .next t ∧
      Spec.Written (Instr.sel f).uses f.d f.wide s t
        (fun w l => if (s.src32 l f.c).getLsbD 0 then Spec.src s w l f.a else Spec.src s w l f.b))) ∧
  (∀ (f : VForm) (s : State), (Instr.iaddc f).wf = true → Spec.ready (Instr.iaddc f).uses s = true →
    ∃ t, exec (.iaddc f) s = .next t ∧
      Spec.Written (Instr.iaddc f).uses f.d f.wide s t (fun w l =>
        Spec.src s w l f.a + Spec.src s w l f.b + (if (s.src32 l f.c).getLsbD 0 then 1 else 0)) ∧
      Spec.WrittenP (Instr.iaddc f).uses f.c s t (fun l =>
        let c := if (s.src32 l f.c).getLsbD 0 then 1 else 0
        Spec.test (if f.wide then decide (2 ^ 64 ≤ (s.src64 l f.a).toNat + (s.src64 l f.b).toNat + c)
          else decide (2 ^ 32 ≤ (s.src32 l f.a).toNat + (s.src32 l f.b).toNat + c)))) ∧
  ((∀ (f : VForm) (s : State), (Instr.icmp f).wf = true → Spec.ready (Instr.icmp f).uses s = true →
    ∃ t, exec (.icmp f) s = .next t ∧ Spec.WrittenP (Instr.icmp f).uses f.d s t (fun l => Spec.test
      (if f.a.isG then Spec.compare f.sel 64 (s.src64 l f.a) (s.src64 l f.b)
       else Spec.compare f.sel 32 (s.src32 l f.a) (s.src32 l f.b)))) ∧
  (∀ (f : IForm) (s : State), (Instr.icmpI f).wf = true → Spec.ready (Instr.icmpI f).uses s = true →
    ∃ t, exec (.icmpI f) s = .next t ∧ Spec.WrittenP (Instr.icmpI f).uses f.d s t (fun l => Spec.test
      (if f.a.isG then Spec.compare f.sel 64 (s.src64 l f.a) (f.imm.signExtend 64)
       else Spec.compare f.sel 32 (s.src32 l f.a) f.imm)))) ∧
  (∀ f : VForm, (f.c.isP = false → Spec.illegal (.iaddc f) ∧ Spec.illegal (.sel f)) ∧
    (f.d.isP = false ∨ 10 ≤ f.sel.toNat → Spec.illegal (.icmp f))) ∧
  (∀ f : IForm, f.d.isP = false ∨ 10 ≤ f.sel.toNat → Spec.illegal (.icmpI f))

/-- R351, R352, R353: IADDW, LEA, MOVI and MOVU, and the fields of theirs that are ILLEGAL_FIELD. -/
def Obligations.WideAndMoves : Prop :=
  (∀ (f : VForm) (s : State), (Instr.iaddw f).wf = true → Spec.ready (Instr.iaddw f).uses s = true →
    ∃ t, exec (.iaddw f) s = .next t ∧ Spec.Written (Instr.iaddw f).uses f.d true s t (fun w l =>
      (s.src64 l f.a + if f.sel = 0 then (s.src32 l f.b).signExtend 64 else (s.src32 l f.b).setWidth 64).setWidth w)) ∧
  (∀ (f : MForm) (s : State), (Instr.lea f).wf = true → Spec.ready (Instr.lea f).uses s = true →
    ∃ t, exec (.lea f) s = .next t ∧ Spec.Written (Instr.lea f).uses f.data true s t (fun w l =>
      BitVec.ofInt w (((s.src64 l f.base).toNat + (if f.idx.isV then (s.src32 l f.idx).toNat else 0) * 2 ^ f.scl.toNat + f.ofs.toInt : Int)
        % 2 ^ 56))) ∧
  (∀ (f : IForm) (s : State), (Instr.movi f).wf = true → Spec.ready (Instr.movi f).uses s = true →
    ∃ t, exec (.movi f) s = .next t ∧ Spec.Written (Instr.movi f).uses f.d f.wide s t (fun w _ => f.imm.signExtend w)) ∧
  (∀ (f : IForm) (s : State), (Instr.movu f).wf = true → Spec.ready (Instr.movu f).uses s = true →
    ∃ t, exec (.movu f) s = .next t ∧ Spec.Written (Instr.movu f).uses f.d true s t (fun w l =>
      (f.imm ++ (s.src64 l f.d).setWidth 32 : BitVec 64).setWidth w)) ∧
  (∀ f : VForm, (f.d.isG = false ∧ f.d.vMul 2 = false) ∨ 2 ≤ f.sel.toNat → Spec.illegal (.iaddw f)) ∧
  (∀ f : MForm, (f.data.isG = false ∧ f.data.vMul 2 = false) ∨ f.size ≠ 0 ∨ f.ord ≠ 0 ∨ f.scope ≠ 0 ∨ f.subop ≠ 0 ∨ f.h.eb.getLsbD 2 = true →
    Spec.illegal (.lea f)) ∧
  (∀ (f : MForm) (w : BitVec 96), encode (.lea f) = some w → w.extractLsb' 0 10 = 0x01C ∧ pipeOf w.toNat = .v) ∧
  (∀ f : IForm, f.d.isG = false → Spec.illegal (.movu f))

/-! ## Register-only instructions as a whole (R29, R154, R158, R281) -/

/-- Every register-only instruction completes when its lanes can take part, and changes nothing but what it names: each vector,
uniform and predicate register that is no destination of an acting lane is as before, so are the other register classes, planes,
accumulators, the operand buffer, what is in flight, the trap registers and stickies of every thread (but PARAMBOUND, which a word
beyond its window sets, R18) and the counts of time; every lane stands at the next address; and every byte of memory is as before
unless a partition has its trace enabled, whose records the device writes (R305). -/
def Obligations.RegisterFrame : Prop :=
  ∀ (i : Instr) (s : State), Spec.registerOnly i = true → i.wf = true → Spec.ready i.uses s = true →
    ∃ t, exec i s = .next t ∧
      (∀ l n, n < 256 → (∀ m, Spec.acts i.uses s m = true → RegName.v l n ∉ i.uses.writes m) → t.getV l n = s.getV l n) ∧
      (∀ g n, n < 64 → (∀ m, Spec.acts i.uses s m = true → RegName.u g n ∉ i.uses.writes m) → t.getU g n = s.getU g n) ∧
      (∀ l n, n < 16 → (∀ m, Spec.acts i.uses s m = true → RegName.p l n ∉ i.uses.writes m) → t.getP l n = s.getP l n) ∧
      t.treg = s.treg ∧ t.pinreg = s.pinreg ∧ t.pinDir = s.pinDir ∧ t.accs = s.accs ∧ t.planesA = s.planesA ∧ t.planesS = s.planesS ∧
      t.opbuf = s.opbuf ∧ t.fills = s.fills ∧ t.stores = s.stores ∧ t.colls = s.colls ∧ t.matq = s.matq ∧ t.pages = s.pages ∧
      t.lcb = s.lcb ∧ t.refCount = s.refCount ∧ t.coreCycle = s.coreCycle ∧ t.pkg = s.pkg ∧
      (∀ l, (t.thread l).inHandler = (s.thread l).inHandler ∧ (t.thread l).trapPc = (s.thread l).trapPc ∧
        (t.thread l).trapCause = (s.thread l).trapCause ∧ (t.thread l).info0 = (s.thread l).info0 ∧
        (t.thread l).info1 = (s.thread l).info1 ∧ (t.thread l).info2 = (s.thread l).info2 ∧ (t.thread l).info3 = (s.thread l).info3 ∧
        (t.thread l).ceiling = (s.thread l).ceiling ∧ (t.thread l).sig = (s.thread l).sig ∧
        ((t.thread l).paramBound = true ↔ (s.thread l).paramBound = true ∨ (Spec.acts i.uses s l = true ∧ s.beyond i.uses l = true))) ∧
      (∀ l ∈ s.cur.lanes, (t.thread l).pc = nextAddr s.cur.pc) ∧
      ((∀ p, (s.part p).trctl.getLsbD 63 = false) → ∀ a, t.rdByte a = s.rdByte a)

/-- R154: a thread that retires an instruction is counted for its partition and its launch, a NOP is not. Here for one lane. -/
def Obligations.RetiringCounts : Prop :=
  ∀ (i : Instr) (s : State) (l : Nat), Spec.registerOnly i = true → i.wf = true → Spec.ready i.uses s = true → s.cur.lanes = [l] →
    (s.groups.find (gidOf l)).isSome = true → (s.launches.find (s.group (gidOf l)).launch).isSome = true →
    ∃ t, exec i s = .next t ∧
      (∀ f, i ≠ .nop f → t.ctrs.getD (ctrNo 1 (s.group (gidOf l)).space 0) 0 = s.ctrs.getD (ctrNo 1 (s.group (gidOf l)).space 0) 0 + 1 ∧
        (t.launchOf l).retired = (s.launchOf l).retired + 1) ∧
      (∀ f, i = .nop f → t.ctrs = s.ctrs ∧ t.launches = s.launches)

/-! ## Floating point and conversion (R228 to R246, R372 to R384) -/

/-- R373, R374, R379: the arithmetic instructions round the exact result of the exact sources once, under RND and `.sat`. -/
def Obligations.FloatArithmetic : Prop :=
  (∀ (f : VForm) (s : State),
    ∀ x ∈ ([(.fadd f, Flt.add f.rnd.toNat), (.fsub f, fun a b => Flt.add f.rnd.toNat a b.negate), (.fmul f, Flt.mul), (.fdiv f, Flt.div)] :
        List (Instr × (Flt.Val → Flt.Val → Flt.Val))),
      x.1.wf = true → Spec.ready x.1.uses s = true →
      ∃ t, exec x.1 s = .next t ∧ Spec.Written x.1.uses f.d false s t (fun w l => BitVec.ofNat w
        (Flt.f32.round f.rnd.toNat f.sat (x.2 (Flt.f32.decode (s.src32 l f.a).toNat) (Flt.f32.decode (s.src32 l f.b).toNat))))) ∧
  (∀ (f : IForm) (s : State),
    ∀ x ∈ ([(.faddI f, Flt.add f.rnd.toNat), (.fsubI f, fun a b => Flt.add f.rnd.toNat a b.negate), (.fmulI f, Flt.mul)] :
        List (Instr × (Flt.Val → Flt.Val → Flt.Val))),
      x.1.wf = true → Spec.ready x.1.uses s = true →
      ∃ t, exec x.1 s = .next t ∧ Spec.Written x.1.uses f.d false s t (fun w l => BitVec.ofNat w
        (Flt.f32.round f.rnd.toNat f.sat (x.2 (Flt.f32.decode (s.src32 l f.a).toNat) (Flt.f32.decode f.imm.toNat))))) ∧
  (∀ (f : VForm) (s : State), (Instr.ffma f).wf = true → Spec.ready (Instr.ffma f).uses s = true →
    ∃ t, exec (.ffma f) s = .next t ∧ Spec.Written (Instr.ffma f).uses f.d false s t (fun w l => BitVec.ofNat w
      (Flt.f32.round f.rnd.toNat f.sat (Flt.add f.rnd.toNat
        (Flt.mul (Flt.f32.decode (s.src32 l f.a).toNat) (Flt.f32.decode (s.src32 l f.b).toNat)) (Flt.f32.decode (s.src32 l f.c).toNat)))))

/-- R228, R235: an FP32 or BF16 bit pattern that is no NaN is the rounding of its own value, under every RND and with or without Sat
where it is finite. -/
def Obligations.ExactValuesRoundToThemselves : Prop :=
  ∀ f ∈ [Flt.f32, Flt.bf16], ∀ rnd x : Nat, rnd ≤ 4 → x < 2 ^ (f.ebits + f.mbits + 1) → f.decode x ≠ .nan →
    f.round rnd false (f.decode x) = x ∧ (x % 2 ^ (f.ebits + f.mbits) ≤ f.maxBits → f.round rnd true (f.decode x) = x)

/-- R375 to R377: FMIN, FMAX, FCMP and FCLASS.
R378, R379: FSCALE, FRND, FRCP, FRSQ and FSQRT. -/
def Obligations.FloatSelections : Prop :=
  ((∀ (f : VForm) (s : State), ∀ x ∈ [(Instr.fmin f, false), (.fmax f, true)],
    x.1.wf = true → Spec.ready x.1.uses s = true →
    ∃ t, exec x.1 s = .next t ∧ Spec.Written x.1.uses f.d false s t (fun w l =>
      (Spec.pick x.2 (s.src32 l f.a) (s.src32 l f.b)).setWidth w)) ∧
  (∀ (f : IForm) (s : State), ∀ x ∈ [(Instr.fminI f, false), (.fmaxI f, true)],
    x.1.wf = true → Spec.ready x.1.uses s = true →
    ∃ t, exec x.1 s = .next t ∧ Spec.Written x.1.uses f.d false s t (fun w l =>
      (Spec.pick x.2 (s.src32 l f.a) f.imm).setWidth w)) ∧
  (∀ (f : VForm) (s : State), (Instr.fcmp f).wf = true → Spec.ready (Instr.fcmp f).uses s = true →
    ∃ t, exec (.fcmp f) s = .next t ∧ Spec.WrittenP (Instr.fcmp f).uses f.d s t (fun l =>
      Spec.test (Spec.floatCompare f.sel (s.src32 l f.a) (s.src32 l f.b)))) ∧
  (∀ (f : IForm) (s : State), (Instr.fcmpI f).wf = true → Spec.ready (Instr.fcmpI f).uses s = true →
    ∃ t, exec (.fcmpI f) s = .next t ∧ Spec.WrittenP (Instr.fcmpI f).uses f.d s t (fun l =>
      Spec.test (Spec.floatCompare f.sel (s.src32 l f.a) f.imm))) ∧
  (∀ f : VForm, f.d.isP = false ∨ f.sel.toNat ∈ [6, 7, 8, 9, 12, 13, 14, 15] → Spec.illegal (.fcmp f)) ∧
  (∀ f : IForm, f.d.isP = false ∨ f.sel.toNat ∈ [6, 7, 8, 9, 12, 13, 14, 15] → Spec.illegal (.fcmpI f)) ∧
  (∀ f : VForm, f.d.isP = false → f.b ≠ .v 0 → Spec.illegal (.fclass f)) ∧
  (∀ (f : VForm) (s : State), (Instr.fclass f).wf = true → Spec.ready (Instr.fclass f).uses s = true →
    ∃ t, exec (.fclass f) s = .next t ∧
      (f.d.isP = false → Spec.Written (Instr.fclass f).uses f.d false s t (fun w l => BitVec.ofNat w (Spec.classMask (s.src32 l f.a)))) ∧
      Spec.WrittenP (Instr.fclass f).uses f.d s t (fun l => Spec.test ((Spec.classes (s.src32 l f.a)).zipIdx.any (fun e => e.1 && (s.src32 l f.b).getLsbD e.2))))) ∧
  ((∀ (f : VForm) (s : State), (Instr.fscale f).wf = true → Spec.ready (Instr.fscale f).uses s = true →
    ∃ t, exec (.fscale f) s = .next t ∧ Spec.Written (Instr.fscale f).uses f.d false s t (fun w l => BitVec.ofNat w
      (Flt.f32.round f.rnd.toNat f.sat (Flt.scale (s.src32 l f.b).toInt (Flt.f32.decode (s.src32 l f.a).toNat))))) ∧
  (∀ (f : IForm) (s : State), (Instr.fscaleI f).wf = true → Spec.ready (Instr.fscaleI f).uses s = true →
    ∃ t, exec (.fscaleI f) s = .next t ∧ Spec.Written (Instr.fscaleI f).uses f.d false s t (fun w l => BitVec.ofNat w
      (Flt.f32.round f.rnd.toNat f.sat (Flt.scale f.imm.toInt (Flt.f32.decode (s.src32 l f.a).toNat))))) ∧
  (∀ (f : VForm) (s : State),
    ∀ x ∈ [(Instr.frnd f, Flt.f32.integral f.rnd.toNat),
        (.frcp f, fun a => Flt.f32.round f.rnd.toNat f.sat (Flt.div (.fin false 1 0) (Flt.f32.decode a))),
        (.frsq f, fun a => Flt.f32.round 0 false (Flt.rsqrt (Flt.f32.decode a))),
        (.fsqrt f, fun a => Flt.f32.round f.rnd.toNat f.sat (Flt.sqrt (Flt.f32.decode a)))],
      x.1.wf = true → Spec.ready x.1.uses s = true →
      ∃ t, exec x.1 s = .next t ∧ Spec.Written x.1.uses f.d false s t (fun w l => BitVec.ofNat w (x.2 (s.src32 l f.a).toNat))))

/-- R245, R379: the transcendental instructions write the model's value, which depends on the source alone (log 15 says how it is found);
special sources have the results of R379, and a NaN gives the canonical NaN. -/
def Obligations.Transcendentals : Prop :=
  ∀ (f : VForm) (s : State),
    ∀ x ∈ ([(.fexp2 f, Flt.exp2, [(0, 0x3F800000), (0x80000000, 0x3F800000), (0xFF800000, 0), (0x7F800000, 0x7F800000), (0x43000000, 0x7F800000),
          (0xC3150000, 1), (0xC1200000, 0x3A800000)]),
        (.flog2 f, Flt.log2, [(0, 0xFF800000), (0x80000000, 0xFF800000), (0x7F800000, 0x7F800000), (0xFF800000, 0x7FC00000), (0xBF800000, 0x7FC00000),
          (0x3F800000, 0), (0x3A800000, 0xC1200000)]),
        (.fsin f, Flt.trig 0, [(0, 0), (0x80000000, 0x80000000), (0x7F800000, 0x7FC00000), (0xFF800000, 0x7FC00000)]),
        (.fcos f, Flt.trig 1, [(0, 0x3F800000), (0x80000000, 0x3F800000), (0x7F800000, 0x7FC00000), (0xFF800000, 0x7FC00000)]),
        (.ftanh f, Flt.tanh, [(0, 0), (0x80000000, 0x80000000), (0x7F800000, 0x3F800000), (0xFF800000, 0xBF800000), (0xC1200000, 0xBF800000)])] :
        List (Instr × (Nat → Nat) × List (BitVec 32 × BitVec 32))),
      x.1.wf = true → Spec.ready x.1.uses s = true →
      ∃ t, exec x.1 s = .next t ∧ Spec.Written x.1.uses f.d false s t (fun w l => BitVec.ofNat w (x.2.1 (s.src32 l f.a).toNat)) ∧
        ∀ l, Spec.stands x.1.uses f.d s l = true →
          (Spec.nan (s.src32 l f.a) = true → t.src32 l f.d = 0x7FC00000) ∧ ∀ y ∈ x.2.2, s.src32 l f.a = y.1 → t.src32 l f.d = y.2

/-- R380, R384: the instructions on pairs of BF16 values, element by element, and packing and unpacking.
R381 to R383: CVT takes the element that SEL names from its source, decodes it and rounds it to the destination format; SAT has no effect
on the pairs whose conversion is exact. -/
def Obligations.PairsAndConversions : Prop :=
  ((∀ (f : VForm) (s : State),
    ∀ x ∈ [(Instr.hadd2 f, fun a b => Flt.bf16.round f.rnd.toNat f.sat (Flt.add f.rnd.toNat (Flt.bf16.decode a) (Flt.bf16.decode b))),
        (.hmul2 f, fun a b => Flt.bf16.round f.rnd.toNat f.sat (Flt.mul (Flt.bf16.decode a) (Flt.bf16.decode b))),
        (.hmax2 f, fun a b => Flt.bf16.minmax (f.sel == 0) a b)],
      x.1.wf = true → Spec.ready x.1.uses s = true →
      ∃ t, exec x.1 s = .next t ∧ Spec.Written x.1.uses f.d false s t (fun w l =>
        let a := s.src32 l f.a
        let b := s.src32 l f.b
        BitVec.ofNat w (x.2 (a.extractLsb' 0 16).toNat (b.extractLsb' 0 16).toNat +
          2 ^ 16 * x.2 (a.extractLsb' 16 16).toNat (b.extractLsb' 16 16).toNat))) ∧
  (∀ (f : VForm) (s : State), (Instr.hfma2 f).wf = true → Spec.ready (Instr.hfma2 f).uses s = true →
    ∃ t, exec (.hfma2 f) s = .next t ∧ Spec.Written (Instr.hfma2 f).uses f.d false s t (fun w l =>
      let el := fun (k : Nat) => Flt.bf16.round f.rnd.toNat f.sat (Flt.add f.rnd.toNat
        (Flt.mul (Flt.bf16.decode ((s.src32 l f.a).extractLsb' k 16).toNat) (Flt.bf16.decode ((s.src32 l f.b).extractLsb' k 16).toNat))
        (Flt.bf16.decode ((s.src32 l f.c).extractLsb' k 16).toNat))
      BitVec.ofNat w (el 0 + 2 ^ 16 * el 16))) ∧
  (∀ (f : VForm) (s : State), (Instr.packb f).wf = true → Spec.ready (Instr.packb f).uses s = true →
    ∃ t, exec (.packb f) s = .next t ∧ Spec.Written (Instr.packb f).uses f.d false s t (fun w l =>
      (((s.src32 l f.b).extractLsb' (if f.sel.getLsbD 1 then 16 else 0) 16) ++
        ((s.src32 l f.a).extractLsb' (if f.sel.getLsbD 0 then 16 else 0) 16) : BitVec 32).setWidth w)) ∧
  (∀ (f : VForm) (s : State), (Instr.unpackb f).wf = true → Spec.ready (Instr.unpackb f).uses s = true →
    ∃ t, exec (.unpackb f) s = .next t ∧ Spec.Written (Instr.unpackb f).uses f.d false s t (fun w l =>
      (((s.src32 l f.a).extractLsb' (if f.sel = 0 then 0 else 16) 16) ++ (0 : BitVec 16) : BitVec 32).setWidth w))) ∧
  (∀ (f : VForm) (s : State), (Instr.cvt f).wf = true → Spec.ready (Instr.cvt f).uses s = true →
    ∃ t, exec (.cvt f) s = .next t ∧ Spec.Written (Instr.cvt f).uses f.d false s t (fun w l =>
      let n := Flt.codeBits f.sfmt.toNat
      let exact := decide ((f.sfmt.toNat, f.dfmt.toNat) ∈ [(0, 9), (1, 9), (2, 9), (3, 9), (4, 9), (2, 0), (3, 0), (4, 0), (2, 1), (3, 1), (4, 1)])
      BitVec.ofNat w (Flt.encodeCode f.dfmt.toNat f.rnd.toNat (f.sat && !exact)
        (Flt.decodeCode f.sfmt.toNat ((s.src32 l f.a).extractLsb' (n * f.sel.toNat) n).toNat)))) ∧
  (∀ f : VForm, (4 ≤ f.sel.toNat → Spec.illegal (.packb f)) ∧ (2 ≤ f.sel.toNat → Spec.illegal (.unpackb f)))

/-! ## Predicates (R355) -/

/-- R355: the predicate instructions act on all eight bits; PANY and PALL write a test; an operand that is no predicate, and a used C, is
ILLEGAL_FIELD. -/
def Obligations.Predicates : Prop :=
  (∀ (f : VForm) (s : State),
    ∀ x ∈ ([(.pand f, fun a b => a &&& b), (.por f, fun a b => a ||| b), (.pxor f, fun a b => a ^^^ b),
        (.pany f, fun a b => Spec.test (a &&& b != 0)), (.pall f, fun a b => Spec.test (a &&& b == b))] :
        List (Instr × (Byte → Byte → Byte))),
      x.1.wf = true → Spec.ready x.1.uses s = true →
      ∃ t, exec x.1 s = .next t ∧ Spec.WrittenP x.1.uses f.d s t (fun l => x.2 ((s.src32 l f.a).setWidth 8) ((s.src32 l f.b).setWidth 8))) ∧
  (∀ (f : VForm) (s : State), ∀ x ∈ ([(.pnot f, fun a => ~~~a), (.pmov f, fun a => a)] : List (Instr × (Byte → Byte))),
      x.1.wf = true → Spec.ready x.1.uses s = true →
      ∃ t, exec x.1 s = .next t ∧ Spec.WrittenP x.1.uses f.d s t (fun l => x.2 ((s.src32 l f.a).setWidth 8))) ∧
  (∀ f : VForm, f.d.isP = false ∨ f.a.isP = false ∨ f.c ≠ .v 0 →
    ∀ i ∈ [Instr.pand f, .por f, .pxor f, .pnot f, .pmov f, .pany f, .pall f], Spec.illegal i) ∧
  (∀ f : VForm, f.b.isP = false → ∀ i ∈ [Instr.pand f, .por f, .pxor f, .pany f, .pall f], Spec.illegal i)

/-! ## Control (R356 to R370) -/

namespace Sys2Proof.Spec

open Machine

/-- The target of BRA and CALL: slot TSLOT of the line LOFS lines on (R326). -/
def branchTarget (f : BForm) (pc : Addr) : Nat := (((pc.toNat / 64 * 64 + f.tslot.toNat : Nat) + 64 * f.lofs.toInt : Int) % 2 ^ 56).toNat
/-- Bits [55:0] of an operand. -/
def codeOf (s : State) (l : Nat) (o : Operand) : Nat := ((s.src64 l o).setWidth 56).toNat

/-- A group-collective instruction finds its group gathered (R143, R361): the lanes are of group `g`, every thread of it that has not
exited stands there and issues with it, in ascending order, with its guard register full and no first entry at a slot that is no target; and for every thread whose guard passes, no register that it names is
empty and no window that it reads is unbound. -/
def gathered (u : Uses) (s : State) (g : Nat) : Bool :=
  s.cur.lanes != [] && s.cur.lanes.all (fun l => gidOf l == g && !s.undeclared u l) && (s.groups.find g).isSome &&
  decide ((s.live g).Pairwise (· < ·)) &&
  (s.live g).all (fun l => s.stands s.cur.pc l && s.cur.lanes.contains l && s.entryTrap l == none && (regsOf l (.p u.h.guard) 1).all (fun r => !s.isEmpty r) &&
    (!s.guardOn u.h l || (s.blocking u l == [] && s.unbound u l == none && s.emptyRead u l == none)))
/-- The acting threads of a gathered group, in ascending LEVEL0 (R361). -/
def actors (u : Uses) (s : State) (g : Nat) : List Nat := (s.live g).filter (s.guardOn u.h)
/-- The thread that SHFL reads for a thread at LEVEL0 `i` with index `b` (R366): the thread itself when the index is out of range. -/
def shuffled (s : State) (mode : BitVec 4) (l b : Nat) : Nat :=
  let i : Int := level0 l
  let j : Int := [(b : Int), i - b, i + b, ((level0 l ^^^ b : Nat) : Int)].getD mode.toNat 0
  if 0 ≤ j ∧ j < (s.group (gidOf l)).width then gidOf l * 64 + j.toNat else l
/-- The integer operations of GREDUCE with their identities, by SEL 0 to 7 (R367). -/
def reductions : List (BitVec 32 × (BitVec 32 → BitVec 32 → BitVec 32)) :=
  [(0, fun a b => a + b), (0x7FFFFFFF, fun a b => if b.slt a then b else a), (0x80000000, fun a b => if a.slt b then b else a),
   (0xFFFFFFFF, fun a b => if b.ult a then b else a), (0, fun a b => if a.ult b then b else a), (0xFFFFFFFF, fun a b => a &&& b),
   (0, fun a b => a ||| b), (0, fun a b => a ^^^ b)]

end Sys2Proof.Spec

/-- R307, R315, R317, R326, R356 to R358: a branch whose targets may be entered sends every acting lane to its target, whose address its
signature takes; every other lane goes on at the next address; CALL writes the next address into its pair.
R282, R317, R357, R358: a branch of one lane whose target may not be entered raises BAD_TARGET at the branch, and CALL does not
write its pair. -/
def Obligations.Branches : Prop :=
  (∀ (f : BForm) (s : State),
  ∀ x ∈ ([(.bra f, fun _ => Spec.branchTarget f s.cur.pc), (.brx f, fun l => Spec.codeOf s l f.opnd),
      (.call f, fun _ => Spec.branchTarget f s.cur.pc), (.ret f, fun l => Spec.codeOf s l f.opnd)] : List (Instr × (Nat → Nat))),
    x.1.wf = true → Spec.ready x.1.uses s = true →
    (∀ l, Spec.acts x.1.uses s l = true →
      if x.1 = .ret f then x.2 l % 64 < 5
      else s.enter (coreOf (gidOf l)) (s.spaceOf l) s.cur.pc.toNat (x.2 l) = none ∧ s.lineWait l (x.2 l) = none) →
    ∃ t, exec x.1 s = .next t ∧
      (∀ l, Spec.acts x.1.uses s l = true →
        (t.thread l).pc = BitVec.ofNat 56 (x.2 l) ∧ (t.thread l).sig = (s.thread l).sig.rotateLeft 7 ^^^ BitVec.ofNat 64 (x.2 l)) ∧
      (∀ l ∈ s.cur.lanes, Spec.acts x.1.uses s l = false → (t.thread l).pc = nextAddr s.cur.pc ∧ (t.thread l).sig = (s.thread l).sig) ∧
      (x.1 = .call f → ∀ l, Spec.acts x.1.uses s l = true → t.src64 l f.opnd = (nextAddr s.cur.pc).setWidth 64)) ∧
  (∀ (f : BForm) (s : State) (l : Nat),
  ∀ x ∈ ([(.bra f, Spec.branchTarget f s.cur.pc), (.brx f, Spec.codeOf s l f.opnd), (.call f, Spec.branchTarget f s.cur.pc),
      (.ret f, Spec.codeOf s l f.opnd)] : List (Instr × Nat)),
    x.1.wf = true → Spec.ready x.1.uses s = true → s.cur.lanes = [l] → Spec.acts x.1.uses s l = true →
    (5 ≤ x.2 % 64 ∨ (x.1 ≠ .ret f ∧ ∃ b, s.fetch (coreOf (gidOf l)) (s.spaceOf l) s.cur.pc.toNat x.2 = .line b ∧
      (leNat (b.drop 60)).testBit (x.2 % 64) = false ∧ s.lineWait l x.2 = none)) → x.2 < 2 ^ 56 → (s.thread l).st = .ready →
    ∃ t, exec x.1 s = .next t ∧
      t = ((s.takeTrap l { cause := .badTarget, i3 := BitVec.ofNat 64 x.2 } s.cur.pc false false false).faultPages 8 [l]))

/-- R364, R365, R366: ELECT, VOTE and SHFL in a gathered group; every participant goes on at the next address. ELECT leaves the
predicates of every other thread; its fields that hold something else, and the wrong classes of VOTE, are ILLEGAL_FIELD. -/
def Obligations.Collectives : Prop :=
  (∀ (f : VForm) (s : State) (g : Nat), (Instr.elect f).wf = true → Spec.gathered (Instr.elect f).uses s g = true →
    ∃ t, exec (.elect f) s = .next t ∧
      (∀ l ∈ Spec.actors (Instr.elect f).uses s g, ∀ n, f.d = .p n → t.getP l n.toNat =
        if n = 0 then 0xFF else Spec.test (decide (∀ m ∈ Spec.actors (Instr.elect f).uses s g, l ≤ m))) ∧
      (∀ l, l ∉ Spec.actors (Instr.elect f).uses s g → ∀ n < 16, t.getP l n = s.getP l n) ∧
      (∀ l ∈ s.live g, (t.thread l).pc = nextAddr s.cur.pc ∧ (t.thread l).st = .ready)) ∧
  (∀ (f : VForm) (s : State) (g : Nat), (Instr.vote f).wf = true → Spec.gathered (Instr.vote f).uses s g = true →
    let ts := Spec.actors (Instr.vote f).uses s g
    let b := fun l => (s.src32 l f.a).getLsbD 0
    ∃ t, exec (.vote f) s = .next t ∧
      (∀ l ∈ ts, ∀ n, f.d = .p n → t.getP l n.toNat = if n = 0 then 0xFF else Spec.test
        (if f.sel = 0 then ts.any b else if f.sel = 1 then ts.all b else ts.all (fun m => s.src32 m f.a == s.src32 l f.a))) ∧
      (∀ l ∈ ts, f.sel = 2 → ∀ k < 64, (t.src64 l f.d).getLsbD k = (ts.contains (g * 64 + k) && b (g * 64 + k))) ∧
      (∀ l ∈ s.live g, (t.thread l).pc = nextAddr s.cur.pc ∧ (t.thread l).st = .ready)) ∧
  (∀ (f : VForm) (s : State) (g : Nat), (Instr.shfl f).wf = true → Spec.gathered (Instr.shfl f).uses s g = true →
    let ts := Spec.actors (Instr.shfl f).uses s g
    let j := fun l => Spec.shuffled s f.sel l (s.src32 l f.b).toNat
    ts.all (fun l => (regsOf (j l) f.a 1).all (fun r => !s.isEmpty r)) = true →
    ∃ t, exec (.shfl f) s = .next t ∧
      (∀ l ∈ ts, t.src32 l f.d = if (s.thread (j l)).st = .exited then 0 else s.src32 (j l) f.a) ∧
      (∀ l ∈ s.live g, (t.thread l).pc = nextAddr s.cur.pc ∧ (t.thread l).st = .ready)) ∧
  (∀ (f : IForm) (s : State) (g : Nat), (Instr.shflI f).wf = true → Spec.gathered (Instr.shflI f).uses s g = true →
    let ts := Spec.actors (Instr.shflI f).uses s g
    let j := fun l => Spec.shuffled s f.sel l f.imm.toNat
    ts.all (fun l => (regsOf (j l) f.a 1).all (fun r => !s.isEmpty r)) = true →
    ∃ t, exec (.shflI f) s = .next t ∧
      (∀ l ∈ ts, t.src32 l f.d = if (s.thread (j l)).st = .exited then 0 else s.src32 (j l) f.a) ∧
      (∀ l ∈ s.live g, (t.thread l).pc = nextAddr s.cur.pc ∧ (t.thread l).st = .ready)) ∧
  (∀ f : VForm, (f.d.isP = false ∨ f.a ≠ .v 0 ∨ f.b ≠ .v 0 ∨ f.c ≠ .v 0 → Spec.illegal (.elect f)) ∧
    (f.sel.toNat = 2 ∧ f.d.isG = false ∨ f.sel.toNat ≠ 2 ∧ f.d.isP = false ∨ f.sel.toNat = 3 ∧ f.a.isV = false ∨
      f.sel.toNat ≤ 2 ∧ f.a.isP = false ∨ 4 ≤ f.sel.toNat → Spec.illegal (.vote f)))

/-- R246, R367: GREDUCE gives every acting thread the integer reduction of the acting threads' values (SEL 0 to 7), or the fixed tree of
R246 over the lanes of the group for the float operations (SEL 8 to 10). -/
def Obligations.Reductions : Prop :=
  ∀ (f : VForm) (s : State) (g : Nat), (Instr.greduce f).wf = true → Spec.gathered (Instr.greduce f).uses s g = true →
    (s.group g).width ∈ [8, 16, 32, 64] → (∀ l ∈ s.live g, level0 l < (s.group g).width) →
    let ts := Spec.actors (Instr.greduce f).uses s g
    ∃ t, exec (.greduce f) s = .next t ∧
      (∀ l ∈ ts, ∀ op, Spec.reductions[f.sel.toNat]? = some op →
        t.src32 l f.d = ts.foldl (fun a m => op.2 a (s.src32 m f.a)) op.1 ∧ (f.d.isG = true → t.src64 l f.d = (t.src32 l f.d).setWidth 64)) ∧
      (∀ l ∈ ts, 8 ≤ f.sel.toNat → [(t.src32 l f.d).toNat] = reduceTree (reduceOp f.sel.toNat) (Nat.log2 (s.group g).width)
        ((List.range (s.group g).width).map (fun i => if ts.contains (g * 64 + i) then (s.src32 (g * 64 + i) f.a).toNat
          else reduceId f.sel.toNat))) ∧
      (∀ l ∈ s.live g, (t.thread l).pc = nextAddr s.cur.pc ∧ (t.thread l).st = .ready)

/-- R204, R362: BAR.LEVEL 1 passes a phase when its group is gathered and nothing that the release waits for is left. BAR.LEVEL k above
1, in one thread that has not arrived there: it arrives; the last arrival of a phase passes it and goes on, an earlier one waits. -/
def Obligations.Barriers : Prop :=
  (∀ (f : IForm) (s : State) (g : Nat), (Instr.bar f).wf = true → f.imm = 1 → Spec.gathered (Instr.bar f).uses s g = true →
    (∀ l ∈ s.cur.lanes, (s.launchOf l).record.barOk 1 = true) → (∀ l ∈ s.live g, s.ordWait l 2 = none) →
    ∃ t, exec (.bar f) s = .next t ∧
      t.bars.getD (s.barKey g 1) 0 = s.bars.getD (s.barKey g 1) 0 + 1 ∧
      (∀ l ∈ s.live g, (t.thread l).pc = nextAddr s.cur.pc ∧ (t.thread l).st = .ready)) ∧
  (∀ (f : IForm) (s : State) (l : Nat), (Instr.bar f).wf = true → 1 < f.imm.toNat → Spec.ready (Instr.bar f).uses s = true →
    s.cur.lanes = [l] → Spec.acts (Instr.bar f).uses s l = true → (s.launchOf l).record.barOk f.imm.toNat = true →
    (s.thread l).st = .ready → (s.thread l).arrived.contains s.cur.pc = false → s.ordWait l 2 = none →
    let k := f.imm.toNat
    let p := s.bars.getD (s.barKey (gidOf l) k) 0
    (s.thread l).arrivals.getD k 0 = p → l ∈ s.instThreads (gidOf l) k →
    ∃ t, exec (.bar f) s = .next t ∧ (t.thread l).arrivals.getD k 0 = p + 1 ∧
      ((∀ m ∈ s.instThreads (gidOf l) k, m ≠ l → p < (s.thread m).arrivals.getD k 0) →
        t.bars.getD (s.barKey (gidOf l) k) 0 = p + 1 ∧ (t.thread l).pc = nextAddr s.cur.pc ∧ (t.thread l).st = .ready) ∧
      ((∃ m ∈ s.instThreads (gidOf l) k, m ≠ l ∧ (s.thread m).arrivals.getD k 0 ≤ p) →
        t.bars.getD (s.barKey (gidOf l) k) 0 = p ∧ (t.thread l).pc = (s.thread l).pc ∧ (t.thread l).st = .waiting (.bar k) ∧
          (t.thread l).arrived.contains s.cur.pc = true))

/-- R108, R165, R166, R359: EXIT without stores to wait for ends the acting threads, whose pending fills go on with nothing delivered to
them, and a group whose last thread has exited is gone when nothing that it queued is left.
R150, R368 to R370: YIELD sets its threads back by 16 cycles of the island's clock; SLEEP suspends them for IMM cycles and is a NOP for 0; NOPRE begins a
hold where there is none, and PREOK ends it. -/
def Obligations.ExitsAndScheduling : Prop :=
  (∀ (f : VForm) (s : State), (Instr.exitT f).wf = true → Spec.ready (Instr.exitT f).uses s = true →
    (∀ l, Spec.acts (Instr.exitT f).uses s l = true → s.storesPending l = false) → (∀ l ∈ s.cur.lanes, (s.thread l).st = .ready) →
    ∃ t, exec (.exitT f) s = .next t ∧
      (∀ l, Spec.acts (Instr.exitT f).uses s l = true → (t.thread l).st = .exited ∧ (∀ e ∈ t.fills, e.2.tid = l → e.2.gone = true) ∧
        (∀ n < 256, t.getV l n = 0) ∧
        (t.live (gidOf l) = [] → s.matq = [] → s.tloads = [] → (∀ e ∈ s.fills, gidOf e.2.tid ≠ gidOf l) →
          t.groups.find (gidOf l) = none)) ∧
      (∀ l ∈ s.cur.lanes, Spec.acts (Instr.exitT f).uses s l = false → t.live (gidOf l) ≠ [] ∧ (t.thread l).pc = nextAddr s.cur.pc)) ∧
  ((∀ (f : VForm) (s : State), (Instr.yield f).wf = true → Spec.ready (Instr.yield f).uses s = true →
    ∃ t, exec (.yield f) s = .next t ∧
      ∀ l, Spec.acts (Instr.yield f).uses s l = true → (t.thread l).pc = nextAddr s.cur.pc ∧
        (t.thread l).st = .waiting (.yield ((s.cycles (coreOf (gidOf l))).toNat + 16))) ∧
  (∀ (f : IForm) (s : State), (Instr.sleep f).wf = true → Spec.ready (Instr.sleep f).uses s = true →
    ∃ t, exec (.sleep f) s = .next t ∧
      ∀ l, Spec.acts (Instr.sleep f).uses s l = true →
        if f.imm = 0 then (t.thread l).pc = nextAddr s.cur.pc
        else (t.thread l).pc = (s.thread l).pc ∧ (t.thread l).st = .waiting (.sleep ((s.group (gidOf l)).cycle.toNat + f.imm.toNat))) ∧
  (∀ (f : VForm) (s : State), (Instr.nopre f).wf = true → Spec.ready (Instr.nopre f).uses s = true →
    ∃ t, exec (.nopre f) s = .next t ∧
      ∀ l, Spec.acts (Instr.nopre f).uses s l = true → (s.groups.find (gidOf l)).isSome = true →
        (t.group (gidOf l)).hold = some ((s.group (gidOf l)).hold.getD s.cur.pc)) ∧
  (∀ (f : VForm) (s : State), (Instr.preok f).wf = true → Spec.ready (Instr.preok f).uses s = true →
    ∃ t, exec (.preok f) s = .next t ∧
      ∀ l, Spec.acts (Instr.preok f).uses s l = true → (t.group (gidOf l)).hold = none))

/-! ## Encoding (R18, R324 to R337) -/

namespace Sys2Proof.Spec

open Machine

/-- The 96 bits of an instruction from its three words. -/
def word (a b c : Nat) : Nat := a + 2 ^ 32 * b + 2 ^ 64 * c
/-- A header of zeros but for guard, ARM and token. -/
def head (guard : BitVec 4) (arm : Bool) (tok : BitVec 3) : Header :=
  { eb := 0, arm := arm, atok := tok, wait := 0, ginv := false, guard := guard }

end Sys2Proof.Spec

/-- Worked encodings of the spec decode to the instructions they stand for: R340, R345, R351, R358, R364, R374, R390, R412, R415,
R425, R429. -/
def Obligations.WorkedEncodings : Prop :=
  ∀ x ∈ [(Spec.word 0x52 0x405 0x2, Instr.shlI { h := Spec.head 0 false 0, d := .v 5, a := .v 1, sel := 0, rnd := 0, sat := false, dfmt := 0, imm := 2 }),
      (Spec.word 0x4C 0x200206 0x18, .icmpI { h := Spec.head 0 false 0, d := .p 6, a := .v 0, sel := 2, rnd := 0, sat := false, dfmt := 0, imm := 24 }),
      (Spec.word 0xC0 0x1806 0x3F800000,
        .faddI { h := Spec.head 0 false 0, d := .v 6, a := .v 6, sel := 0, rnd := 0, sat := false, dfmt := 0, imm := 0x3F800000 }),
      (Spec.word 0x10A 0x30014 0x0, .call { h := Spec.head 0 false 0, opnd := .v 20, mod := 0, lofs := 3, tslot := 0 }),
      (Spec.word 0x10E 0x205 0x0, .elect { h := Spec.head 0 false 0, d := .p 5, a := .v 0, b := .v 0, c := .v 0, sel := 0, rnd := 0,
                                           sat := false, dfmt := 0, sfmt := 0 }),
      (Spec.word 0x180 0x60040402 0x13, .ld { h := Spec.head 0 false 0, data := .v 2, base := .g 1, idx := .p 0, scope := 5, ord := 1,
                                              size := 2, scl := 0, subop := 0, ofs := 0 }),
      (Spec.word 0x181 0x140002 0x20010, .st { h := Spec.head 0 false 0, data := .v 2, base := .g 0, idx := .v 1, scope := 0, ord := 0,
                                               size := 2, scl := 0, subop := 0, ofs := 32 }),
      (Spec.word 0x1242 0x41400 0x2000200, .binitI { h := Spec.head 4 false 0, res := .v 0, a := .g 5, b := .v 0, c := .v 0, imm16 := 2,
                                                     lo := 2, sat := false, pw := 0, poll := false }),
      (Spec.word 0x5800E88 0x90AA0000 0x1, .mdrain { h := Spec.head 3 true 3, res := .v 0, a := .a 0, b := .g 10, c := .v 6, imm16 := 0,
                                                     lo := 0, sat := false, pw := 0, poll := false }),
      (Spec.word 0x303 0x104 0x2B, .getsr { h := Spec.head 0 false 0, d := .g 4, a := .v 0, sel := 0, rnd := 0, sat := false, dfmt := 0,
                                            imm := 0x2B }),
      (Spec.word 0x301 0x0 0x51, .trapI { h := Spec.head 0 false 0, d := .v 0, a := .v 0, sel := 0, rnd := 0, sat := false, dfmt := 0,
                                          imm := 0x51 })],
    decode x.1 = .ok x.2

/-- Decoding and encoding agree: every well-formed instruction of the program decodes from its encoding, with every operand at every
value the encoding admits; and what a word of another opcode than 0x000 decodes to is well-formed and encodes to that word, so that no
bit of a word is dropped. -/
def Obligations.DecodeEncode : Prop :=
  (∀ (i : Instr) (w : BitVec 96), i.wf = true → encode i = some w → decode w.toNat = .ok i) ∧
  (∀ (i : Instr) (w : BitVec 96), w.extractLsb' 0 10 ≠ 0 → decode w.toNat = .ok i → i.wf = true ∧ encode i = some w)

/-- R324, R325, R335, R337, R338: what no row of the opcode map allots is ILLEGAL_OP; a nonzero reserved bit, and the encoding of an instruction
that is not well-formed, is ILLEGAL_FIELD; opcode 0x000 is INVALID whatever its other bits. -/
def Obligations.RefusedEncodings : Prop :=
  ∀ w : BitVec 96,
    (opRow (w.extractLsb' 0 10).toNat = none → w.extractLsb' 0 10 ≠ 0 → decode w.toNat = .error .illegalOp) ∧
    (∀ r, opRow (w.extractLsb' 0 10).toNat = some r → w.extractLsb' 0 10 ≠ 0 →
      w.extractLsb' 30 2 ≠ 0 ∨ (r.fmt = .v ∧ w.extractLsb' 88 8 ≠ 0) ∨ (r.fmt = .b ∧ w.extractLsb' 83 13 ≠ 0) →
      decode w.toNat = .error .illegalField) ∧
    (w.extractLsb' 0 10 = 0 → ∃ f, decode w.toNat = .ok (.invalid f)) ∧
    (∀ i, encode i = some w → w.extractLsb' 0 10 ≠ 0 → i.wf = false → decode w.toNat = .error .illegalField) ∧
    (∀ n : BitVec 10, n ∈ [0x062#10, 0x09A#10, 0x107#10, 0x116#10, 0x18F#10, 0x1B6#10, 0x20C#10, 0x28A#10, 0x309#10, 0x3FF#10] →
      w.extractLsb' 0 10 = n → decode w.toNat = .error .illegalOp)

/-! ## The machine (R34, R37, R89, R127, R209, R434) -/

/-- The memory of the reset state is in canonical form. -/
def Obligations.ResetMemory : Prop := MemInv State.reset

/-- The canonical form of memory is kept by every step, whatever moves: addresses strictly rise and no cell holds the zero that an
unlisted address reads as. Equal memories are then equal data. -/
def Obligations.StepsKeepMemory : Prop := ∀ s t : State, MemInv s → step s = .next t → MemInv t

/-- A step answers a next state whatever the state, but for a package without a supply and with nothing left on its agenda, which stands
still: no instruction and no event is refused. -/
def Obligations.StepsGoOn : Prop :=
  ∀ s : State, (∃ t, step s = .next t) ∨ (s.pkg.supply = false ∧ s.agenda = [] ∧ step s = .fault .unpowered)

namespace Sys2Proof.Spec

open Machine

/-- What follows the instruction of an issue group, which met `v` and left `t`: its issue slots are counted with the lanes that issued, two
for an instruction of pipe V, three where verified issue disagreed (R294, R302), and what is due after an act follows. -/
def issued (vector : Bool) (v t : State) : State :=
  ((t.countIssue v (v.issuedLanes t) vector).verified v.cur.core (vector && v.issuedLanes t != [])).afterAct

end Sys2Proof.Spec

/-- R139 to R141, R294, R315 to R318, R335: a step of a core's issue, or of the second slot of a pair, whose line and slot pass their checks
runs the decoded instruction in the issue group, and traps every thread of it with ILLEGAL_OP or ILLEGAL_FIELD where the word decodes to
none. The issue group is that of R138 to R141, the entry of the address taken from the Grate; a slot that is the first of a sound pair leaves
the second on the agenda (R140, R323), and where the pipe of the second refuses it, neither issues. Where the three results of a verified
issue differ, nothing of it is written, and the error is consumed. An event of the agenda runs as it stands, with its work counted, and so
does what comes from outside; a command that no open session of its authority carries, or that comes in stage 0, does nothing (R34, R48).
What is due after an act follows each. -/
def Obligations.StepsRunWhatTheyDecode : Prop :=
  (∀ (s : State) (core space : Nat) (addr : Addr) (lanes : List Nat) (alone : Bool) (rest : List Act) (b : List Byte),
    let u : State := { s with agenda := rest }
    let x := if alone then u.boundary addr lanes else u.issueGroup core space addr
    let c := x.2
    let w := slotWord b (slotOf addr)
    let good := pairAt b (slotOf addr) && !alone
    let vector := pipeOf w == .v
    s.pkg.supply = true → s.agenda = (if alone then .pair core addr space lanes else .issue core addr space) :: rest → lanes ≠ [] →
    lanes = x.1 → (alone = false → s.coreRuns core = true) →
    (alone = true → ∀ l ∈ lanes, (s.threads.find l).isSome = true ∧ (s.thread l).pc = addr ∧ (s.thread l).st = .ready) →
    (∀ l ∈ lanes, (c.thread l).pastEnd = false ∧
      (∀ pa, (c.touchLine core space addr).hostLine core space addr.toNat = some pa → (c.thread l).lines.contains pa = true) ∧
      (alone = false → (c.group (gidOf l)).pending (maskOfSlot b (slotOf addr)) = false) ∧
      (pipeOf w = .m → ∀ m ∈ c.live (gidOf l), m ≠ l → (c.thread m).st ≠ .waiting (.pipe 5))) →
    isCode addr = true → c.fetch core space addr.toNat addr.toNat = .line b → lineWord b / 2 ^ 16 = 0 →
    (alone = true ∨ slotOf addr ∉ pairsOf (lineWord b / 2 ^ 10 % 16) ∨ good = true) →
    ((List.range 96).countP (fun k => w.testBit k) + lineWord b / 2 ^ (5 + slotOf addr)) % 2 = 0 →
    (space = 64 → auditorMay w = true) →
    let d := lanes.foldl (fun (s : State) t => s.updThread t (fun x => { x with st := .ready })) (c.touchLine core space addr)
    let v : State :=
      { d with
        cur := { core := core, space := space, pc := addr, raw := w, lanes := lanes, last := lastLine b, first := good,
                 tgt := tgtBit b (slotOf addr), serial := d.stamp },
        stamp := d.stamp + 1 }
    (∀ i, decode w = .ok i →
      let v : State := if good then { v with agenda := .pair core (nextAddr addr) space lanes :: v.agenda } else v
      (v.pairStalls = none → v.tripled = none → ∀ t, exec i v = .next t → step s = .next (Spec.issued vector v t)) ∧
      (∀ l, v.pairStalls = none → v.tripled = some l → step s = .next (Spec.issued vector v (v.consumeAt l))) ∧
      (∀ k, v.pairStalls = some k →
        step s = .next (lanes.foldl (fun (s : State) t => s.toWait t (.pipe k)) { v with agenda := v.agenda.tail }).due)) ∧
    (∀ r, decode w = .error r → step s = .next ((lanes.foldl (fun c l => if (c.threads.find l).isSome then
      c.takeTrap l { cause := if r = .illegalOp then .illegalOp else .illegalField, i0 := BitVec.ofNat 64 w, i1 := BitVec.ofNat 64 (w / 2 ^ 64) }
        addr false false false else c) v).countIssue v lanes vector).afterAct)) ∧
  (∀ (s : State) (i : Instr) (rest : List Act), s.pkg.supply = true → s.agenda = .ev i :: rest → i.parts = none →
    (s.admits (Instr.who i) = true → ∀ t, exec i { s with agenda := rest } = .next t →
      step s = .next (t.worked { s with agenda := rest } i).afterAct) ∧
    (s.admits (Instr.who i) = false → step s = .next { s with agenda := rest })) ∧
  (∀ (s : State) (d : Outside) (rest : List Act), s.pkg.supply = true → s.agenda = .dev d :: rest →
    (s.admits d.who = true → step s = .next (execOutside d { s with agenda := rest }).due) ∧
    (s.admits d.who = false → step s = .next { s with agenda := rest }))

/-! ## Memory as a program reads it (R57, R89, R296) -/

/-- R9, R57: bytes that are stored read back, and every other byte reads as before, also where the store meets a frame that was last written
under another key epoch and is filled with zeros first. -/
def Obligations.StoresReadBack : Prop :=
  ∀ (s : State) (pa : Nat) (bs : List Byte), bs ≠ [] → pa % frameBytes + bs.length ≤ frameBytes →
    (∀ k < bs.length, (s.store pa bs).load (pa + k) 1 = [bs.getD k 0]) ∧
    (∀ a, a < pa ∨ pa + bs.length ≤ a → (s.store pa bs).load a 1 = s.load a 1)

/-! ## Traps (R281 to R289, R429, R430) -/

/-- R284, R285: a thread outside a handler whose trap stack is there and whose handler, in device memory, may be entered takes a trap: its frame is built on the trap stack, the copies of
R286 are kept, INHANDLER is set, the thread stands at HANDLER, and nothing else of the thread's or any other thread's registers, nor any
other byte of memory, changes. -/
def Obligations.TakingATrap : Prop :=
  ∀ (s : State) (l : Nat) (ti : TrapInfo) (resume : Addr) (imp asy re : Bool),
    let h := (s.launchOf l).record.handler
    let word := BitVec.ofNat 16 (ti.cause.code + (if imp then 256 else 0) + (if asy then 512 else 0) + (if re then 1024 else 0))
    let status := (if (s.thread l).paramBound then 1 else 0) + (if (s.thread l).ceiling then 2 else 0)
    let frame := toLE 8 resume.toNat ++ toLE 8 ti.i0.toNat ++ toLE 8 ti.i1.toNat ++ toLE 8 ti.i2.toNat ++ toLE 8 ti.i3.toNat ++
      toLE 2 word.toNat ++ toLE 6 0 ++ toLE 8 (s.launchOf l).seq ++ toLE 8 status
    (s.threads.find l).isSome = true → (s.thread l).inHandler = false → s.lostDie (s.framePa l) = false →
    (s.store (s.framePa l) frame).hostLine (coreOf (gidOf l)) (s.spaceOf l) h.toNat = none →
    (s.store (s.framePa l) frame).enter (coreOf (gidOf l)) (s.spaceOf l) h.toNat h.toNat = none →
    let t := s.takeTrap l ti resume imp asy re
    (t.thread l).inHandler = true ∧ (t.thread l).pc = h ∧ (t.thread l).st = .ready ∧ (t.thread l).trapPc = resume ∧
    (t.thread l).trapCause = word ∧ (t.thread l).info0 = ti.i0 ∧ (t.thread l).info1 = ti.i1 ∧ (t.thread l).info2 = ti.i2 ∧
    (t.thread l).info3 = ti.i3 ∧ (t.thread l).paramBound = (s.thread l).paramBound ∧ (t.thread l).ceiling = (s.thread l).ceiling ∧
    (t.thread l).sig = (s.thread l).sig ∧ (t.thread l).reports = (s.thread l).reports ∧ (∀ m ≠ l, t.thread m = s.thread m) ∧
    t.vreg = s.vreg ∧ t.ureg = s.ureg ∧ t.preg = s.preg ∧ t.treg = s.treg ∧ t.pinreg = s.pinreg ∧ t.accs = s.accs ∧ t.fills = s.fills ∧
    t.stores = s.stores ∧ t.groups = s.groups ∧
    t.rdBytes (s.framePa l) 64 = frame ∧ (∀ a, a < s.framePa l ∨ s.framePa l + 64 ≤ a → t.load a 1 = s.load a 1)

/-- R288, R289: a precise trap inside a handler, a trap stack that is lost, and a HANDLER whose slot may not be entered, kill the group with DOUBLE_FAULT: its threads
are gone, and its launch keeps the code of its first kill.
R338, R429: TRAP and BKPT trap every acting lane with their immediate, TRAP to resume at its next address and BKPT at itself; auditor
kernels may issue both, and their unused fields are zero or ILLEGAL_FIELD; INVALID traps every lane of its issue group with ILLEGAL_OP and its bits. -/
def Obligations.FaultsAndSoftwareTraps : Prop :=
  (∀ (s : State) (l : Nat) (ti : TrapInfo) (resume : Addr),
    (s.groups.find (gidOf l)).isSome = true → (s.launches.find (s.group (gidOf l)).launch).isSome = true → (s.threads.find l).isSome = true →
    ((s.thread l).inHandler = true ∨ s.lostDie (s.framePa l) = true ∨
      ((s.thread l).inHandler = false ∧ (s.launchOf l).record.handler.toNat % 64 ≥ 5)) →
    let t := s.takeTrap l ti resume false false false
    (∀ m, gidOf m = gidOf l → t.threads.find m = none) ∧
    (t.launch (s.group (gidOf l)).launch).firstKill = some ((s.launchOf l).firstKill.getD 0x10)) ∧
  ((∀ (f : IForm) (s : State),
    ∀ x ∈ [(Instr.trapI f, Cause.soft, nextAddr s.cur.pc), (.bkpt f, .bkpt, s.cur.pc)],
      x.1.wf = true → Spec.ready x.1.uses s = true → (∃ l, Spec.acts x.1.uses s l = true) →
      exec x.1 s = .next ((s.cur.lanes.filter (Spec.acts x.1.uses s)).foldl (fun c l =>
        if (c.threads.find l).isSome then c.takeTrap l { cause := x.2.1, i0 := f.imm.setWidth 64 } x.2.2 false false false else c) s)) ∧
  (∀ (f : VForm) (s : State),
      exec (.invalid f) s = .next (s.cur.lanes.foldl (fun c l =>
        if (c.threads.find l).isSome then c.takeTrap l { cause := .illegalOp, i0 := BitVec.ofNat 64 s.cur.raw, i1 := BitVec.ofNat 64 (s.cur.raw / 2 ^ 64) }
          s.cur.pc false false false else c) s)) ∧
  (∀ (f : IForm) (w : BitVec 96),
    (encode (.trapI f) = some w → w.extractLsb' 0 10 = 0x301 ∧ auditorMay w.toNat = true) ∧
    (encode (.bkpt f) = some w → w.extractLsb' 0 10 = 0x306 ∧ auditorMay w.toNat = true) ∧
    (f.d ≠ .v 0 ∨ f.a ≠ .v 0 ∨ f.sel ≠ 0 ∨ f.rnd ≠ 0 ∨ f.sat = true ∨ f.dfmt ≠ 0 → Spec.illegal (.trapI f) ∧ Spec.illegal (.bkpt f))))

/-- R287, R430: RTE in a handler clears INHANDLER and continues at the address that the thread's frame holds, which must be fetchable and,
unless it is the recorded resume address or its next address, a target; it restores nothing else. -/
def Obligations.TrapReturns : Prop :=
  ∀ (f : VForm) (s : State), (Instr.rte f).wf = true → Spec.ready (Instr.rte f).uses s = true →
    (∀ l, Spec.acts (Instr.rte f).uses s l = true →
      let a := s.frameAddr' l
      (s.thread l).inHandler = true ∧ (s.thread l).reports = [] ∧ s.acqWait l = none ∧ s.sectorPending l (s.framePa l - scratchBase + flatBase) = false ∧
      s.poisoned (s.framePa l) 8 = false ∧ a.toNat % 64 < 5 ∧ s.lineWait l a.toNat = none ∧
      (((a = (s.thread l).trapPc ∨ a = nextAddr (s.thread l).trapPc) ∧
          ∃ b, s.fetch (coreOf (gidOf l)) (s.spaceOf l) s.cur.pc.toNat a.toNat = .line b) ∨
        s.enter (coreOf (gidOf l)) (s.spaceOf l) s.cur.pc.toNat a.toNat = none)) →
    (∀ l ∈ s.cur.lanes, (s.thread l).st = .ready) →
    ∃ t, exec (.rte f) s = .next t ∧ t.vreg = s.vreg ∧ t.ureg = s.ureg ∧ t.preg = s.preg ∧
      (∀ l, Spec.acts (Instr.rte f).uses s l = true → (t.thread l).inHandler = false ∧ (t.thread l).pc = s.frameAddr' l ∧
        (t.thread l).trapPc = (s.thread l).trapPc ∧ (t.thread l).sig = (s.thread l).sig) ∧
      (∀ l ∈ s.cur.lanes, Spec.acts (Instr.rte f).uses s l = false → (t.thread l).pc = nextAddr s.cur.pc ∧
        (t.thread l).inHandler = (s.thread l).inHandler)

/-! ## Memory instructions (R387 to R399) -/

namespace Sys2Proof.Spec

open Machine

/-- What a lane's load finds for each of its elements. -/
def found (f : MForm) (gather : Bool) (s : State) (l : Nat) : List Ld :=
  (mEls f s l gather).map (fun va => s.ldFind l va (mBytes f gather))
/-- Lane `l` need not wait for an earlier access of its thread (R194, R196, R197), and none of its elements traps; with `now` all of them
are read at issue. -/
def goesTo (f : MForm) (gather : Bool) (s : State) (l : Nat) (now : Bool := false) : Bool :=
  s.ordWait l 0 == none && s.ldWait l (mEls f s l gather) (mBytes f gather) now == none &&
  (found f gather s l).all (fun e => match e with | .here _ _ | .absent => true | _ => false)
/-- The element is at hand: in the slice of the lane's own core, unpoisoned, or absent (R162, R390). -/
def atHand (n : Nat) (s : State) : Ld → Bool
  | .here pa late => !late && !s.poisoned pa n
  | .absent => true
  | _ => false
/-- The bytes of elements, low element first; an absent one reads zero (R179). -/
def bytesOf (n : Nat) (s : State) (els : List Ld) : List Byte :=
  els.flatMap (fun e => match e with | .here pa _ => s.load pa n | _ => List.replicate n 0)
/-- The flag bits of elements: 1 where absent (R179, R390, R391). -/
def flags (els : List Ld) : Byte := BitVec.ofNat 8 (els.zipIdx.map (fun e => if e.1 = .absent then 2 ^ e.2 else 0)).sum
/-- Bytes of the registers that the data operand names (R157). -/
def run (f : MForm) : Nat := if f.data.isG then 8 * ((f.words + 1) / 2) else 4 * f.words
/-- A byte list zero-extended to `n` bytes. -/
def extended (n : Nat) (l : List Byte) : List Byte := (l ++ List.replicate n 0).take n

end Sys2Proof.Spec

/-- R162, R179, R390, R391: LD, LDN and LDU whose elements are all at hand write the data registers, zero-extended, and the flag, at once; an
absent element reads zero and sets its flag bit. LDU is one access of the highest acting lane, whose flag every acting lane of the group
takes.
R162, R390, R391: a load with an element that is not at hand marks its data registers and its flag empty, and its thread goes on: the
values come with LOAD_FILL.
R162: LOAD_FILL of a load of memory that no earlier access of its thread to its sectors precedes reads memory as it is then, fills the
registers and the flag, and is over. -/
def Obligations.Loads : Prop :=
  (∀ (f : MForm) (s : State), ∀ x ∈ [(Instr.ld f, false), (.ldn f, true), (.ldu f, false)],
    x.1.wf = true → Spec.ready x.1.uses s = true → (∀ l ∈ s.cur.lanes, (s.thread l).st = .ready) →
    (∀ l, Spec.acts x.1.uses s l = true → Spec.goesTo f x.2 s l = true ∧ (Spec.found f x.2 s l).all (Spec.atHand (mBytes f x.2) s) = true) →
    ∃ t, exec x.1 s = .next t ∧
      (∀ l, Spec.stands x.1.uses f.data s l = true →
        t.dataBytes l f.data (Spec.run f) = Spec.extended (Spec.run f) (Spec.bytesOf (mBytes f x.2) s (Spec.found f x.2 s l))) ∧
      (∀ l m, Spec.acts x.1.uses s l = true → Spec.stands x.1.uses f.data s m = true → gidOf l = gidOf m → (x.1 = .ldu f ∨ l = m) →
        t.getP l f.subop.toNat = if f.subop = 0 then 0xFF else Spec.flags (Spec.found f x.2 s m)) ∧
      ((∀ p, (s.part p).trctl.getLsbD 63 = false) → ∀ a, t.rdByte a = s.rdByte a)) ∧
  (∀ (f : MForm) (s : State), ∀ x ∈ [(Instr.ld f, false), (.ldn f, true), (.ldu f, false)],
    x.1.wf = true → Spec.ready x.1.uses s = true →
    (∀ l, Spec.acts x.1.uses s l = true → Spec.goesTo f x.2 s l = true ∧
      (Spec.found f x.2 s l).any (fun e => match e with | .here _ late => late | _ => false) = true) →
    ∃ t, exec x.1 s = .next t ∧
      (∀ l, Spec.stands x.1.uses f.data s l = true →
        (∀ r ∈ regsOf l f.data f.words, t.isEmpty r = true) ∧ (f.subop ≠ 0 → t.isEmpty (.p l f.subop.toNat) = true)) ∧
      (∀ l ∈ s.cur.lanes, (t.thread l).pc = nextAddr s.cur.pc) ∧ t.vreg = s.vreg ∧ t.ureg = s.ureg ∧ t.preg = s.preg) ∧
  (∀ (s : State) (id n : Nat) (els : List (Option Nat)) (x : Fill), s.fills.find id = some x → x.what = .load n els →
    (∀ pa, some pa ∈ els → inRegion 2 pa = false) → s.fillBlocked id x = false → s.elsPoisoned n els = false →
    x.gone = false → x.acqr = false → (s.thread x.tid).st ≠ .exited → x.dst.Nodup → (∀ r ∈ x.dst, ∃ l k, r = .v l k ∧ k < 256) → (∀ p, x.flag = some p → p < 16) →
    ∃ t, exec (.loadFill id) s = .next t ∧ t.fills.find id = none ∧ t.mem = s.mem ∧
      (∀ k l m, x.dst[k]? = some (.v l m) → t.getV l m = BitVec.ofNat 32 (leNat
        (els.flatMap (fun o => match o with | some pa => s.load pa n | none => List.replicate n 0)) / 2 ^ (32 * k))) ∧
      (∀ p, x.flag = some p → p ≠ 0 → t.getP x.tid p = x.flagVal))

/-- R291, R388, R390, R391, R394: ST, STN, STU and RED retire at once; each element is a store that has not been resolved yet, with the bytes
of the data registers, low register first; memory is as before. STU is one access of the highest acting lane. -/
def Obligations.StoresRetire : Prop :=
  ∀ (f : MForm) (s : State), ∀ x ∈ [(Instr.st f, false), (.stn f, true), (.stu f, false), (.red f, false)],
    x.1.wf = true → Spec.ready x.1.uses s = true →
    (∀ l, Spec.acts x.1.uses s l = true → s.ordWait l f.ord.toNat = none ∧
      s.storePipe (lowerStores x.1.uses (fun s t => mEls f s t x.2) s l) l (mEls f s l x.2) = none ∧
      (∀ va ∈ mEls f s l x.2, va % mBytes f x.2 = 0 ∧
        (x.1 = .red f → ∀ pa e, s.xlate (s.spaceOf l) (some (coreOf (gidOf l))) va = .leaf pa e →
          e.kind ≠ 3 ∧ e.kind ≠ 4 ∧ reaches e false f.subop.toNat (8 * mBytes f x.2) f.scope.toNat = true))) →
    ∃ t, exec x.1 s = .next t ∧
      (∀ l, Spec.stands x.1.uses f.data s l = true → ∀ k va, (mEls f s l x.2)[k]? = some va →
        ∃ id, s.stamp ≤ id ∧ t.stores.find id = some
          { tid := l, space := s.spaceOf l, va := unalias (some (coreOf (gidOf l))) va,
            data := ((s.dataBytes l f.data (Spec.run f)).drop (mBytes f x.2 * k)).take (mBytes f x.2),
            order := f.ord.toNat, scope := f.scope.toNat,
            atom := if x.1 = .red f then some (f.subop.toNat, false, mBytes f x.2, leNat ((s.dataBytes l f.data (Spec.run f)).take (mBytes f x.2)))
              else none,
            code := s.cur.pc, atRet := (s.thread l).retired + 1, inst := s.cur.serial }) ∧
      (∀ id y, id < s.stamp → s.stores.find id = some y → t.stores.find id = some y) ∧
      (∀ l ∈ s.cur.lanes, (t.thread l).pc = nextAddr s.cur.pc) ∧
      ((∀ p, (s.part p).trctl.getLsbD 63 = false) → ∀ a, t.rdByte a = s.rdByte a)

/-- R87, R88, R185, R194, R195, R291, R394: STORE_RESOLVE of a store, or of an atomic without a returned value, to a writable page of its own
space in DRAM or scratchpad that reaches it and that nothing makes wait: it is over, the bytes or the new value stand at its address, and every other byte of memory reads
as before.
R291, R293: a store to a page that its space may not write, or to no page, is discarded with a report for its thread, and memory is as
before. -/
def Obligations.StoresTakeEffect : Prop :=
  (∀ (s : State) (id pa : Nat) (x : PStore) (e : PageEnt), s.stores.find id = some x →
    s.storeBlocked id x = false →
    s.xlate x.space none x.va = .leaf pa e → e.owner = x.space → e.w = true → e.kind ≤ 1 →
    (e.kind = 0 → s.needsAside x.space pa = false) → s.earlierFill id x.tid [pa / 32] = false → s.lostDie pa = false →
    (∀ op f n v, x.atom = some (op, f, n, v) → f = false ∧ op ≤ 7 ∧ n = x.data.length ∧ s.poisoned pa n = false ∧
      reaches e f op (8 * n) x.scope = true) →
    x.data ≠ [] → pa % frameBytes + x.data.length ≤ frameBytes →
    ∃ t, exec (.storeResolve id) s = .next t ∧ t.stores.find id = none ∧
      (∀ k < x.data.length, t.load (pa + k) 1 = [match x.atom with
        | none => x.data.getD k 0
        | some (op, _, n, v) => (toLE n (atomNew op (8 * n) (leNat (s.load pa n)) v 0)).getD k 0]) ∧
      (∀ a, a < pa ∨ pa + x.data.length ≤ a → t.load a 1 = s.load a 1)) ∧
  (∀ (s : State) (id : Nat) (x : PStore), s.stores.find id = some x → (s.threads.find x.tid).isSome = true →
    s.storeBlocked id x = false →
    (s.xlate x.space none x.va = .none ∨ ∃ pa e, s.xlate x.space none x.va = .leaf pa e ∧ (e.owner ≠ x.space ∨ e.w = false)) →
    ∃ t, exec (.storeResolve id) s = .next t ∧ t.stores.find id = none ∧ t.mem = s.mem ∧
      ∃ r ∈ (t.thread x.tid).reports, r.cause = .storeFault ∧ r.i1 = x.code.setWidth 64 ∧ r.i3 = BitVec.ofNat 64 x.va ∧
        r.i2.getLsbD 1 = true ∧ r.i2.getLsbD 2 = x.atom.isSome)

namespace Sys2Proof.Spec

open Machine

/-- What an atomic of lane `l` finds, and its new value from the old one: the integer operations by SUBOP (R394). -/
def atomic (op w old x new : Nat) : Nat :=
  [(old + x) % 2 ^ w, (if toSigned w x < toSigned w old then x else old), (if toSigned w old < toSigned w x then x else old), min old x,
   max old x, old &&& x, old ||| x, old ^^^ x, x].getD op (if old = x then new else old)
/-- Lane `l` alone acts. -/
def alone (u : Uses) (s : State) (l : Nat) : Bool := acts u s l && s.cur.lanes.all (fun m => m == l || !s.guardOn u.h m)

end Sys2Proof.Spec

/-- R394, R395: ATOM and ATOMF that reach their page: in the slice of the lane's own core the old value is delivered at once and the new one
stands in memory, as one act; elsewhere the registers are empty until it has been performed. -/
def Obligations.Atomics : Prop :=
  ∀ (f : MForm) (s : State), ∀ x ∈ [(Instr.atom f, false), (.atomf f, true)],
    let n := sizeBytes f.size.toNat
    x.1.wf = true → Spec.ready x.1.uses s = true → (∀ l ∈ s.cur.lanes, (s.thread l).st = .ready) →
    (∀ l, Spec.acts x.1.uses s l = true → s.ordWait l f.ord.toNat = none ∧
      s.sectorPending l (unalias (some (coreOf (gidOf l))) (MForm.ea f s l 0)) = false ∧
      ∃ pa late, s.atFind l (MForm.ea f s l 0) n x.2 f.subop.toNat f.scope.toNat = .here pa late ∧
        (late = true ∨ (s.poisoned pa n = false ∧ ∀ e ∈ s.fills, e.2.tid = l → e.2.sectors.contains (pa / 32) = false))) →
    ∃ t, exec x.1 s = .next t ∧
      (∀ l ∈ s.cur.lanes, (t.thread l).pc = nextAddr s.cur.pc) ∧
      (∀ l pa, Spec.acts x.1.uses s l = true → s.atFind l (MForm.ea f s l 0) n x.2 f.subop.toNat f.scope.toNat = .here pa true →
        ∀ r ∈ regsOf l f.data f.words, t.isEmpty r = true) ∧
      (∀ l pa, Spec.alone x.1.uses s l = true → s.atFind l (MForm.ea f s l 0) n x.2 f.subop.toNat f.scope.toNat = .here pa false →
        pa % n = 0 → (∀ p, (s.part p).trctl.getLsbD 63 = false) →
        let old := leNat (s.load pa n)
        let a := fieldLE (s.dataBytes l f.data (2 * n)) 0 n
        let new := if x.2 then Flt.atomF f.subop.toNat old a else
          Spec.atomic f.subop.toNat (8 * n) old a (fieldLE (s.dataBytes l f.data (2 * n)) n n)
        t.dataBytes l f.data n = s.load pa n ∧ t.load pa n = toLE n new ∧ ∀ b, b < pa ∨ pa + n ≤ b → t.load b 1 = s.load b 1)

/-- R196, R197, R210, R293, R396, R398: FENCE and DRAINST complete when what they wait for is over, and change nothing else of a thread but
CEILING, which a scope above the ceiling sets: an acquire FENCE waits for the thread's reads, a release for its stores and its reads, DRAINST
for the stores of its thread, with SEL 1 for those of its group. Until then their thread waits where it stands.
R43, R194, R196, R397: ACQR whose word is at hand completes with the word and its flag; of host memory it suspends its thread, with the read
under way, and a response that completes the read moves it on. -/
def Obligations.FencesAndAcquires : Prop :=
  (∀ (f : MForm) (s : State), (Instr.fence f).wf = true → Spec.ready (Instr.fence f).uses s = true →
    (∀ l, Spec.acts (Instr.fence f).uses s l = true → if f.ord = 1 then s.fillsPending l = false ∧ s.redPending l false = false
      else s.ordWait l f.ord.toNat = none) →
    ∃ t, exec (.fence f) s = .next t ∧ t.vreg = s.vreg ∧ t.ureg = s.ureg ∧ t.preg = s.preg ∧ t.stores = s.stores ∧ t.fills = s.fills ∧
      (∀ l ∈ s.cur.lanes, (t.thread l).pc = nextAddr s.cur.pc) ∧
      ∀ l, Spec.acts (Instr.fence f).uses s l = true →
        ((t.thread l).ceiling = true ↔ (s.thread l).ceiling = true ∨ (s.part (s.spaceOf l)).sceil < f.scope.toNat)) ∧
  (∀ (f : MForm) (s : State) (l : Nat), (Instr.fence f).wf = true → Spec.ready (Instr.fence f).uses s = true → s.cur.lanes = [l] →
    Spec.acts (Instr.fence f).uses s l = true →
    ∃ t, exec (.fence f) s = .next t ∧
      (f.ord = 1 → s.fillsPending l = true → (t.thread l).st = .waiting .accesses ∧ (t.thread l).pc = (s.thread l).pc) ∧
      (f.ord = 1 → s.fillsPending l = false → s.redPending l false = true →
        (t.thread l).st = .waiting .stores ∧ (t.thread l).pc = (s.thread l).pc) ∧
      (f.ord ≠ 1 → s.acqWait l = none → s.storesPending l = true →
        (t.thread l).st = .waiting .stores ∧ (t.thread l).pc = (s.thread l).pc)) ∧
  (∀ (f : VForm) (s : State), (Instr.drainst f).wf = true → Spec.ready (Instr.drainst f).uses s = true →
    (∀ l, Spec.acts (Instr.drainst f).uses s l = true → s.storesPending l = false ∧ (f.sel = 1 → s.drainPending (gidOf l) s.stamp = false)) →
    ∃ t, exec (.drainst f) s = .next t ∧ t.vreg = s.vreg ∧ t.stores = s.stores ∧ ∀ l ∈ s.cur.lanes, (t.thread l).pc = nextAddr s.cur.pc) ∧
  (∀ (f : VForm) (s : State) (l : Nat), (Instr.drainst f).wf = true → Spec.ready (Instr.drainst f).uses s = true → s.cur.lanes = [l] →
    Spec.acts (Instr.drainst f).uses s l = true →
    ∃ t, exec (.drainst f) s = .next t ∧
      (f.sel = 1 → s.drainPending (gidOf l) s.stamp = true →
        (t.thread l).st = .waiting (.drain (some s.stamp)) ∧ (t.thread l).pc = (s.thread l).pc) ∧
      (s.storesPending l = true → (f.sel = 1 → s.drainPending (gidOf l) s.stamp = false) →
        (t.thread l).st = .waiting (.drain none) ∧ (t.thread l).pc = (s.thread l).pc)) ∧
  (∀ (f : MForm) (s : State), (Instr.acqr f).wf = true → Spec.ready (Instr.acqr f).uses s = true →
    (∀ l ∈ s.cur.lanes, (s.thread l).st = .ready) →
    (∀ l, Spec.acts (Instr.acqr f).uses s l = true → Spec.goesTo f false s l true = true ∧ s.acqrHost f l = none ∧
      ∀ pa late, s.ldFind l (MForm.ea f s l 0) (mBytes f false) = .here pa late → s.poisoned pa (mBytes f false) = false) →
    ∃ t, exec (.acqr f) s = .next t ∧ t.fills = s.fills ∧ (∀ l ∈ s.cur.lanes, (t.thread l).pc = nextAddr s.cur.pc) ∧
      (∀ l, Spec.stands (Instr.acqr f).uses f.data s l = true →
        t.dataBytes l f.data (Spec.run f) = Spec.extended (Spec.run f) (Spec.bytesOf (mBytes f false) s (Spec.found f false s l))) ∧
      ∀ l, Spec.acts (Instr.acqr f).uses s l = true →
        t.getP l f.subop.toNat = if f.subop = 0 then 0xFF else Spec.flags (Spec.found f false s l)) ∧
  (∀ (f : MForm) (s : State) (l pa : Nat), (Instr.acqr f).wf = true → Spec.ready (Instr.acqr f).uses s = true → s.cur.lanes = [l] →
    Spec.acts (Instr.acqr f).uses s l = true → (s.thread l).st = .ready → (s.thread l).pc = s.cur.pc → Spec.goesTo f false s l true = true →
    s.acqrHost f l = some pa →
    ∃ t, exec (.acqr f) s = .next t ∧ (t.thread l).st = .waiting .acqr ∧ (t.thread l).pc = s.cur.pc ∧
      ∃ id x, t.fills.find id = some x ∧ x.tid = l ∧ x.acqr = true ∧ x.empties = [] ∧ x.what = .load (mBytes f false) [some pa]) ∧
  (∀ (s : State) (id l n : Nat) (x : Fill), s.fills.find id = some x → x.tid = l → x.acqr = true → x.gone = false →
    (s.thread l).st = .waiting .acqr → (s.group (gidOf l)).halted = false →
    (((s.doneFill id x n 0).thread l).st = .ready ∧ ((s.doneFill id x n 0).thread l).pc = nextAddr (s.thread l).pc ∧
      (s.doneFill id x n 0).fills.find id = none))

/-- R392: LDPARAM delivers words of its parameter window, zero for a word beyond its bound, whose flag bit is set; it reads no memory.
R95, R393: PAGEREQ for an absent page enters a fault entry, or merges into the one that is pending, and goes on; for a page that is there it
does nothing more than go on; without room in the fault queue its thread waits.
R399: every operation of QCTL delivers the count, the flags and the kind of the queue that the control word at its address is bound to, and
the code 1 in bits [51:48] where it is bound to none, 2 where the operation does not take its kind; `.waitne` waits while it is empty and
`.waitroom` while it is full; `.clr` clears OVF and DROP; `.abort` discards the thread's packet and releases its claim there. -/
def Obligations.ParametersPagesAndQueues : Prop :=
  (∀ (f : MForm) (s : State) (k : BitVec 3) (n0 : BitVec 5), f.base = .w k n0 → (Instr.ldparam f).wf = true →
    Spec.ready (Instr.ldparam f).uses s = true →
    (∀ l, Spec.acts (Instr.ldparam f).uses s l = true → ((s.launchOf l).record.win k.toNat).isSome = true) →
    ∃ t, exec (.ldparam f) s = .next t ∧ (∀ l ∈ s.cur.lanes, (t.thread l).pc = nextAddr s.cur.pc) ∧
      ∀ l, Spec.stands (Instr.ldparam f).uses f.data s l = true →
        let m := 2 ^ (f.size.toNat - 2)
        let first : Int := (n0.toNat + (if f.idx.isV then (s.src32 l f.idx).toNat else 0) * 2 ^ f.scl.toNat : Nat) + f.ofs.toInt
        let words := match (s.launchOf l).record.win k.toNat with | some x => x.1 | none => 0
        let inside := fun (i : Nat) => decide (0 ≤ first + i ∧ first + i < (words : Nat))
        t.dataBytes l f.data (4 * m) =
          (List.range m).flatMap (fun i => toLE 4 (if inside i then (s.param l k.toNat (first + i).toNat).toNat else 0)) ∧
        (f.subop ≠ 0 → ∀ i < m, (t.getP l f.subop.toNat).getLsbD i = !inside i)) ∧
  (∀ (f : MForm) (s : State), (Instr.pagereq f).wf = true → Spec.ready (Instr.pagereq f).uses s = true →
    (∀ l, Spec.acts (Instr.pagereq f).uses s l = true → ∃ pa e, e.owner = s.spaceOf l ∧
      s.xlate (s.spaceOf l) (some (coreOf (gidOf l))) (MForm.ea f s l 0) = .leaf pa e) →
    ∃ t, exec (.pagereq f) s = .next t ∧ (∀ l ∈ s.cur.lanes, (t.thread l).pc = nextAddr s.cur.pc) ∧ t.pageWaits = s.pageWaits ∧
      t.pageMore = s.pageMore) ∧
  (∀ (f : MForm) (s : State) (l : Nat) (e : PageEnt), (Instr.pagereq f).wf = true → Spec.ready (Instr.pagereq f).uses s = true →
    s.cur.lanes = [l] → Spec.acts (Instr.pagereq f).uses s l = true → e.state ≠ 4 →
    s.xlate (s.spaceOf l) (some (coreOf (gidOf l))) (MForm.ea f s l 0) = .absent e →
    let page := MForm.ea f s l 0 / frameBytes
    (s.pagePending (s.spaceOf l) page = true ∨ (∃ h q, s.kindQueue (s.spaceOf l) 3 = some (h, q) ∧ q.full = false) →
      ∃ t, exec (.pagereq f) s = .next t ∧ t.pagePending (s.spaceOf l) page = true ∧
        (∀ w, s.pageWaits.find (pageKey (s.spaceOf l) page) = some w → ∃ w', t.pageWaits.find (pageKey (s.spaceOf l) page) = some w' ∧
          w'.merge = min 65535 (w.merge + 1)) ∧
        ((∀ h q, s.kindQueue (s.spaceOf l) 3 = some (h, q) → s.queueSound (s.spaceOf l) q = true) → (t.thread l).pc = nextAddr s.cur.pc)) ∧
    (s.pagePending (s.spaceOf l) page = false → (∀ h q, s.kindQueue (s.spaceOf l) 3 = some (h, q) → q.full = true) →
      ∃ t, exec (.pagereq f) s = .next t ∧ (t.thread l).st = .waiting (.pipe 2) ∧ (t.thread l).pc = (s.thread l).pc)) ∧
  (∀ (f : MForm) (s : State), (Instr.qctl f).wf = true → Spec.ready (Instr.qctl f).uses s = true →
    let at' := fun l => unalias (some (coreOf (gidOf l))) (MForm.ea f s l 0)
    (∀ l, Spec.acts (Instr.qctl f).uses s l = true → MForm.ea f s l 0 % 32 = 0 ∧ (s.ldFind l (MForm.ea f s l 0) 32).trap? = none) →
    (∀ l, Spec.acts (Instr.qctl f).uses s l = true → ∀ h q0 q, s.cwQueue (s.spaceOf l) (at' l) = some (h, q0) →
      s.freshQueue (s.spaceOf l) h = some q →
      ¬ (f.subop = 1 ∧ (q.kind = 0 ∨ q.kind = 4) ∧ q.count = 0) ∧
      ¬ (f.subop = 2 ∧ (q.kind = 0 ∨ q.kind = 1 ∨ q.kind = 5 ∨ q.kind = 6) ∧ q.full = true)) →
    ∃ t, exec (.qctl f) s = .next t ∧ (∀ l ∈ s.cur.lanes, (t.thread l).pc = nextAddr s.cur.pc) ∧
      ∀ l, Spec.alone (Instr.qctl f).uses s l = true →
        (s.cwQueue (s.spaceOf l) (at' l) = none → t.src64 l f.data = 0x0001000000000000) ∧
        (∀ h q0 q, s.cwQueue (s.spaceOf l) (at' l) = some (h, q0) → s.freshQueue (s.spaceOf l) h = some q →
          let takes := f.subop = 0 ∨ f.subop = 3 ∨ (f.subop = 1 ∧ (q.kind = 0 ∨ q.kind = 4)) ∨
            (f.subop = 2 ∧ (q.kind = 0 ∨ q.kind = 1 ∨ q.kind = 5 ∨ q.kind = 6)) ∨
            (f.subop = 4 ∧ (q.kind = 0 ∨ q.kind = 1 ∨ q.kind = 4 ∨ q.kind = 5 ∨ q.kind = 6))
          (takes → t.src64 l f.data = BitVec.ofNat 64 (q.kind * 2 ^ 40 + ((if q.scratch then 1 else 0) + (if q.netrx then 2 else 0) +
            (if q.ovf then 4 else 0) + (if q.drop then 8 else 0)) * 2 ^ 32 + q.count)) ∧
          (¬ takes → t.src64 l f.data = 0x0002000000000000) ∧
          (f.subop = 3 → ∃ q', t.queue (s.spaceOf l) h = some q' ∧ q'.ovf = false ∧ q'.drop = false) ∧
          (f.subop = 4 → takes → (∀ p, (t.thread l).packet = some p → p.handle ≠ h) ∧ ∀ c, (t.thread l).claim = some c → c.handle ≠ h))) ∧
  (∀ (f : MForm) (s : State) (l h : Nat) (q0 q : Queue), (Instr.qctl f).wf = true → Spec.ready (Instr.qctl f).uses s = true →
    s.cur.lanes = [l] → Spec.acts (Instr.qctl f).uses s l = true →
    let cw := unalias (some (coreOf (gidOf l))) (MForm.ea f s l 0)
    MForm.ea f s l 0 % 32 = 0 → (s.ldFind l (MForm.ea f s l 0) 32).trap? = none →
    s.cwQueue (s.spaceOf l) cw = some (h, q0) → s.freshQueue (s.spaceOf l) h = some q →
    ∃ t, exec (.qctl f) s = .next t ∧
      (f.subop = 1 → q.kind = 0 ∨ q.kind = 4 → q.count = 0 → (t.thread l).st = .waiting (.room cw false) ∧ (t.thread l).pc = (s.thread l).pc) ∧
      (f.subop = 2 → q.kind = 0 ∨ q.kind = 1 ∨ q.kind = 5 ∨ q.kind = 6 → q.full = true →
        (t.thread l).st = .waiting (.room cw true) ∧ (t.thread l).pc = (s.thread l).pc))

/-! ## Pins, reclaim and generations (R182 to R184, R213 to R227, R400, R401) -/

/-- R183, R217, R218, R400, R401: PIN publishes the name of its group's highest acting lane, and the name that stood there is dropped, which sets
REDO of its list entry; UNPIN withdraws the pin and keeps NAME; SNAP closes the current generation and opens the next, or answers 7 in
[7:0] when 16 live; SNAPQ delivers the state word of a serial.
R219 to R224: RECLAIM of a name without an entry enters it and starts a search, which marks the register empty; of a name with an entry it
answers JOINED; with 4,096 entries FULL. The search that finds no pin, of those that stood when it began and those that stand when it ends,
frees the entry and answers 0; one that finds m pins leaves it and answers m and 1. A re-search follows REDO, and one that finds no pin completes the entry, whose record is posted when there is room.
RECLWAIT takes the oldest record, or with POLL answers 1, or waits. -/
def Obligations.PinsAndReclaims : Prop :=
  ((∀ (f : VForm) (s : State) (n : BitVec 3), f.d = .pin n → (Instr.pin f).wf = true → Spec.ready (Instr.pin f).uses s = true →
    (∀ l, Spec.acts (Instr.pin f).uses s l = true → pinV (s.getPin (gidOf l) n.toNat) = false ∨ s.ordWait l 2 = none ∨
      ∀ m, Spec.stands (Instr.pin f).uses f.d s m = true → gidOf m = gidOf l →
        pinName (s.getPin (gidOf l) n.toNat) = (s.src64 m f.a).toNat % 2 ^ 48) →
    ∃ t, exec (.pin f) s = .next t ∧
      ∀ l, Spec.stands (Instr.pin f).uses f.d s l = true →
        let old := s.getPin (gidOf l) n.toNat
        (t.getPin (gidOf l) n.toNat).getLsbD 63 = true ∧
        (t.getPin (gidOf l) n.toNat).setWidth 48 = (s.src64 l f.a).setWidth 48 ∧
        (pinV old = true → pinName old ≠ (s.src64 l f.a).toNat % 2 ^ 48 →
          ∀ e, (s.part (s.spaceOf l)).reclaims.find (pinName old) = some e →
            ∃ e', (t.part (s.spaceOf l)).reclaims.find (pinName old) = some e' ∧ e'.redo = true)) ∧
  (∀ (f : VForm) (s : State) (n : BitVec 3), f.d = .pin n → (Instr.unpin f).wf = true → Spec.ready (Instr.unpin f).uses s = true →
    (∀ l, Spec.acts (Instr.unpin f).uses s l = true → s.ordWait l 2 = none) →
    ∃ t, exec (.unpin f) s = .next t ∧
      ∀ l, Spec.stands (Instr.unpin f).uses f.d s l = true →
        (t.getPin (gidOf l) n.toNat).getLsbD 63 = false ∧
        (t.getPin (gidOf l) n.toNat).setWidth 48 = (s.getPin (gidOf l) n.toNat).setWidth 48) ∧
  (∀ (f : VForm) (s : State) (space : Nat), (Instr.snap f).wf = true → Spec.ready (Instr.snap f).uses s = true →
    (∀ l, Spec.acts (Instr.snap f).uses s l = true → s.spaceOf l = space ∧ s.ordWait l 3 = none) → (∃ l, Spec.acts (Instr.snap f).uses s l = true) →
    let p := s.part space
    let g := p.gens.getD p.curSerial { num := 0, state := 1 }
    p.curSerial ≠ p.nextSerial →
    ∃ t, exec (.snap f) s = .next t ∧
      (p.liveGens < 16 →
        (t.part space).nextSerial = p.nextSerial + 1 ∧
        (t.part space).gens.find p.nextSerial = some { num := p.freeNum, state := 1 } ∧
        (∃ h, (t.part space).gens.find p.curSerial = some h ∧ h.state = 2 ∧ h.num = g.num) ∧
        ∀ l, Spec.stands (Instr.snap f).uses f.d s l = true → t.src64 l f.d = BitVec.ofNat 64 (p.curSerial * 2 ^ 32 + g.num * 256 + 2)) ∧
      (16 ≤ p.liveGens → (t.part space).gens = p.gens ∧
        ∀ l, Spec.stands (Instr.snap f).uses f.d s l = true → t.src64 l f.d = BitVec.ofNat 64 (p.curSerial * 2 ^ 32 + g.num * 256 + 7))) ∧
  (∀ (f : VForm) (s : State), (Instr.snapq f).wf = true → Spec.ready (Instr.snapq f).uses s = true →
    ∃ t, exec (.snapq f) s = .next t ∧ Spec.Written (Instr.snapq f).uses f.d true s t (fun w l =>
      let serial := (s.src32 l f.a).toNat
      BitVec.ofNat w (serial * 2 ^ 32 + match (s.part (s.spaceOf l)).gens.find serial with
        | some g => (if g.state = 4 then 0 else g.num * 256) + g.state
        | none => 0)))) ∧
  ((∀ (f : VForm) (s : State) (l : Nat), (Instr.reclaim f).wf = true → Spec.ready (Instr.reclaim f).uses s = true →
    Spec.alone (Instr.reclaim f).uses s l = true → s.storesPending l = false → s.acqWait l = none →
    (s.newName (s.spaceOf l) ((s.src64 l f.a).toNat % 2 ^ 48) = true → s.coreSearches (coreOf (gidOf l)) < 64) →
    let p := s.part (s.spaceOf l)
    let name := (s.src64 l f.a).toNat % 2 ^ 48
    ∃ t, exec (.reclaim f) s = .next t ∧ (∀ r ∈ regsOf l f.d 1, t.isEmpty r = true) ∧
      (p.reclaims.find name = none → p.reclaims.length < 4096 →
        (t.part (s.spaceOf l)).reclaims.find name =
          some { creator := (s.launchOf l).seq, die := (s.launchOf l).die, running := true } ∧
        ∃ id q, t.searches.find id = some q ∧ q.name = name ∧ q.fills = [id] ∧
          ∃ x, t.fills.find id = some x ∧ x.dst = regsOf l f.d 1 ∧ x.acq = true) ∧
      (∀ e, p.reclaims.find name = some e → (∃ id x, t.fills.find id = some x ∧ x.tid = l ∧ x.what = .value 2) ∧
        (t.part (s.spaceOf l)).reclaims.find name = some { e with joined := e.joined || decide (e.creator ≠ (s.launchOf l).seq) }) ∧
      (p.reclaims.find name = none → 4096 ≤ p.reclaims.length → (t.part (s.spaceOf l)).reclaims = p.reclaims ∧
        ∃ id x, t.fills.find id = some x ∧ x.tid = l ∧ x.what = .value 3)) ∧
  (∀ (s : State) (id fid l n : Nat) (q : Search) (x : Fill) (e : Reclaim), s.searches.find id = some q → q.fills = [fid] → q.first = true →
    s.fills.find fid = some x → x.dst = [.v l n] → x.flag = none → x.gone = false → s.live (gidOf x.tid) ≠ [] → n < 256 → (s.part q.space).reclaims.find q.name = some e →
    let m := s.searchFinds q
    ∃ t, exec (.pinSearchDone id) s = .next t ∧ t.searches.find id = none ∧ t.fills.find fid = none ∧
      (m = 0 → (t.part q.space).reclaims.find q.name = none ∧ t.getV l n = 0) ∧
      (0 < m → (t.part q.space).reclaims.find q.name = some { e with running := false, found := min 65535 m } ∧
        t.getV l n = BitVec.ofNat 32 (min 65535 m * 65536 + 1))) ∧
  (∀ (s : State) (id : Nat) (q : Search) (e : Reclaim), s.searches.find id = some q → q.first = false → s.kindQueue q.space 4 = none →
    (s.part q.space).reclaims.find q.name = some e →
    ∃ t, exec (.pinSearchDone id) s = .next t ∧ t.searches.find id = none ∧
      (t.part q.space).reclaims.find q.name =
        some { e with running := false, complete := e.complete || decide (s.searchFinds q = 0) }) ∧
  (∀ (s : State) (space name : Nat) (e : Reclaim), (s.part space).reclaims.find name = some e → e.redo = true → e.running = false →
    e.complete = false → (s.part space).sealed = false → (s.part space).frozen = false →
    ∃ t, exec (.reclaimResearch space name) s = .next t ∧
      (t.part space).reclaims.find name = some { e with redo := false, running := true } ∧
      ∃ id q, t.searches.find id = some q ∧ q.space = space ∧ q.name = name ∧ q.first = false ∧ q.pins = s.pinKeys space name) ∧
  (∀ (s : State) (space name h : Nat) (e : Reclaim) (q : Queue), (s.part space).reclaims.find name = some e → e.complete = true →
    s.kindQueue space 4 = some (h, q) → s.queue space h = some q → q.kind = 4 → Spec.room s space q = true →
    (s.part space).sealed = false → (s.part space).frozen = false →
    ∃ t, exec (.reclaimCompletionPost space name) s = .next t ∧ (t.part space).reclaims.find name = none ∧
      ∃ q', t.queue space h = some q' ∧ q'.tail = (q.tail + 1) % 2 ^ 32) ∧
  (∀ (f : VForm) (s : State) (l : Nat), (Instr.reclwait f).wf = true → Spec.ready (Instr.reclwait f).uses s = true →
    Spec.alone (Instr.reclwait f).uses s l = true → s.acqWait l = none → s.recordPoisoned (s.spaceOf l) = false →
    ∃ t, exec (.reclwait f) s = .next t ∧
      (∀ h q, s.kindQueue (s.spaceOf l) 4 = some (h, q) → (q.tail + 2 ^ 32 - q.nextClaim) % 2 ^ 32 ≠ 0 → q.nextClaim ≠ q.tail →
        s.queueSound (s.spaceOf l) q = true →
        t.dataBytes l f.d 32 = s.loadVa (s.spaceOf l) (q.entryVa q.nextClaim) 32 ∧
          (f.a ≠ .p 0 → (t.src32 l f.a).getLsbD 0 = false)) ∧
      (s.kindQueue (s.spaceOf l) 4 = none → f.sel ≠ 0 → t.dataBytes l f.d 32 = List.replicate 32 0 ∧ (t.src32 l f.a).getLsbD 0 = true) ∧
      (s.kindQueue (s.spaceOf l) 4 = none → f.sel = 0 → (t.thread l).st = .waiting .reclaim ∧ (t.thread l).pc = (s.thread l).pc)))

/-! ## Barrier objects, tokens and tiles (R22, R127, R274, R275, R415 to R419) -/

/-- R275, R415, R416: BINIT makes an object; ARRIVE adds its bytes to the balance and takes one from PEND, and the object completes when both are
zero, or sets EXTRA when no arrival was due; WAITPHASE goes on when PHASE differs from its operand and waits while it does not; TESTPHASE
delivers the test. The frame: no other byte of memory changes.
R22: an instruction that arms a token which is still pending waits until it is idle.
R127, R417 to R419: TOKWAIT waits while a token of its mask is pending, and with POLL delivers the idle tokens; TFILL and TEMPTY set the bit
of every unit of a tile; TWAIT waits for a unit that is not in the state it asks for, and with POLL delivers the test. -/
def Obligations.BarriersTokensAndTiles : Prop :=
  (∀ (f : AForm) (s : State) (l pa : Nat), pa % 16 = 0 → (∀ p, (s.part p).trctl.getLsbD 63 = false) → s.objWait l (s.vaOf l f.a) 16 = none →
    (∀ b, s.scratchAt l (s.vaOf l f.a) 16 b = .ok pa) →
    let o := s.barrierAt pa
    (∀ x ∈ [(Instr.binit f, (s.src32 l f.b).toNat), (.binitI f, f.imm16.toNat)],
      x.1.wf = true → Spec.ready x.1.uses s = true → Spec.alone x.1.uses s l = true → 1 ≤ x.2 → x.2 < 65536 →
      ∃ t, exec x.1 s = .next t ∧
        t.barrierAt pa = { bal := 0, pend := x.2, per := x.2, phase := 0, scope := f.lo.toNat, extra := false, balerr := false } ∧
        ∀ a, a < pa ∨ pa + 16 ≤ a → t.load a 1 = s.load a 1) ∧
    (∀ x ∈ [(Instr.arrive f, (s.src32 l f.b).toNat), (.arriveI f, f.imm16.toNat)],
      x.1.wf = true → Spec.ready x.1.uses s = true → Spec.alone x.1.uses s l = true → x.2 < 2 ^ 31 → s.ordWait l 2 = none →
      s.poisoned pa 16 = false →
      ∃ t, exec x.1 s = .next t ∧
        (o.pend = 0 → t.barrierAt pa = { o with extra := true }) ∧
        (0 < o.pend → o.bal + x.2 < 2 ^ 31 → t.barrierAt pa =
          if o.pend = 1 ∧ o.bal + x.2 = 0 then { o with bal := 0, pend := o.per, phase := (o.phase + 1) % 2 ^ 32 }
          else { o with bal := o.bal + x.2, pend := o.pend - 1 }) ∧
        ∀ a, a < pa ∨ pa + 16 ≤ a → t.load a 1 = s.load a 1) ∧
    (∀ x ∈ [(Instr.waitphase f, (s.src32 l f.b).toNat), (.waitphaseI f, f.imm16.toNat)],
      x.1.wf = true → Spec.ready x.1.uses s = true → Spec.alone x.1.uses s l = true → s.poisoned pa 16 = false →
      ∃ t, exec x.1 s = .next t ∧
        (o.phase ≠ x.2 → (t.thread l).pc = nextAddr s.cur.pc) ∧
        (o.phase = x.2 → (t.thread l).st = .waiting (.phase pa x.2) ∧ (t.thread l).pc = (s.thread l).pc)) ∧
    (∀ x ∈ [(Instr.testphase f, (s.src32 l f.b).toNat), (.testphaseI f, f.imm16.toNat)],
      x.1.wf = true → Spec.ready x.1.uses s = true → Spec.alone x.1.uses s l = true → s.poisoned pa 16 = false →
      ∃ t, exec x.1 s = .next t ∧ ∀ n, f.res = .p n → n ≠ 0 → t.getP l n.toNat = Spec.test (o.phase ≠ x.2))) ∧
  (∀ (f : AForm) (s : State) (l : Nat),
    ((Instr.tokwait f).wf = true → Spec.ready (Instr.tokwait f).uses s = true → Spec.alone (Instr.tokwait f).uses s l = true →
      let m := (s.src32 l f.b).setWidth 8
      let g := s.group (gidOf l)
      ∃ t, exec (.tokwait f) s = .next t ∧
        (f.poll = true → ∀ k < 8, (t.src32 l f.res).getLsbD k = decide ((g.token k).ops = 0)) ∧
        (f.poll = false → (∀ k < 8, m.getLsbD k = true → (g.token k).ops = 0) → (t.thread l).pc = nextAddr s.cur.pc) ∧
        (f.poll = false → (∃ k, k < 8 ∧ m.getLsbD k = true ∧ (g.token k).ops ≠ 0) →
          (t.thread l).st = .waiting (.tokens m) ∧ (t.thread l).pc = (s.thread l).pc)) ∧
    (∀ pa, (∀ w, s.refAt l (s.src64 l f.a).toNat w = .ok pa) →
      let n := 256 * 2 ^ ((s.src64 l f.a).toNat / 2 ^ 56 % 16)
      (∀ x ∈ [(Instr.tfill f, true), (.tempty f, false)],
        x.1.wf = true → Spec.ready x.1.uses s = true → Spec.alone x.1.uses s l = true → s.ordWait l 2 = none →
        ∃ t, exec x.1 s = .next t ∧ (∀ u, t.fullUnits.contains u = if pa / 256 ≤ u ∧ u < pa / 256 + n / 256 then x.2 else s.fullUnits.contains u)) ∧
      ((Instr.twait f).wf = true → Spec.ready (Instr.twait f).uses s = true → Spec.alone (Instr.twait f).uses s l = true → s.acqWait l = none →
        let full := !(s.src64 l f.a).getLsbD 63
        let met := ∀ u, pa / 256 ≤ u → u < pa / 256 + n / 256 → s.fullUnits.contains u = full
        ∃ t, exec (.twait f) s = .next t ∧
          (met → (t.thread l).pc = nextAddr s.cur.pc) ∧
          (¬ met → f.poll = false → ∃ u, pa / 256 ≤ u ∧ u < pa / 256 + n / 256 ∧ s.fullUnits.contains u ≠ full ∧
            (t.thread l).st = .waiting (.tile u full) ∧ (t.thread l).pc = (s.thread l).pc) ∧
          (f.poll = true → (t.thread l).pc = nextAddr s.cur.pc ∧
            ∀ k, f.res = .p k → k ≠ 0 → (met → t.getP l k.toNat = 1) ∧ (¬ met → t.getP l k.toNat = 0))))) ∧
  (∀ (f : AForm) (j : IForm) (s : State) (l : Nat),
    ∀ i ∈ [Instr.copy f, .gcopy f, .mloadw f, .mloadwI f, .mswap f, .mma f, .mzero f, .mhad f, .mhadI f, .mdrain f, .scall j],
    let h := i.uses.h
    s.cur.lanes = [l] → (s.threads.find l).isSome = true → s.undeclared i.uses l = false → s.entryTrap l = none →
    (regsOf l (.p h.guard) 1).all (fun r => !s.isEmpty r) = true → s.guardOn h l = true → s.blocking i.uses l = [] →
    h.arm = true → ((s.group (gidOf l)).token h.atok.toNat).ops ≠ 0 →
    ∃ t, exec i s = .next t ∧ (t.thread l).st = .waiting (.tokens (1 <<< h.atok.toNat)) ∧ (t.thread l).pc = (s.thread l).pc ∧
      t.matq = s.matq ∧ t.colls = s.colls ∧ t.parts = s.parts ∧ t.queues = s.queues ∧ t.groups = s.groups)

/-! ## Copies (R269 to R279, R408, R414, R420) -/

namespace Sys2Proof.Spec

open Machine

/-- The token that an instruction with ARM names. -/
def token (h : Header) : Option Nat := if h.arm then some h.atok.toNat else none
/-- A copy between plain formats of one width, to scratchpad: bytes go over as they are (R266). -/
def plain (y : Layout) : Bool := y.sfmt == y.dfmt && y.sfmt ≤ 4 && !y.toTile

end Sys2Proof.Spec

/-- R269, R270, R273, R276, R414: COPY and GCOPY whose record and slice word pass their checks supply the slice of the group: they open a
collective with the record as it reads then, or join the earliest one of their workgroup and handle that has not started; an armed token
is armed for it, and the thread goes on. -/
def Obligations.CopiesAreSupplied : Prop :=
  ∀ (f : AForm) (s : State) (l pa : Nat), ∀ x ∈ [(Instr.copy f, false), (.gcopy f, true)],
    let word := (s.src32 l f.c).toNat
    let handle := unalias (some (coreOf (gidOf l))) (s.vaOf l f.a)
    x.1.wf = true → Spec.ready x.1.uses s = true → Spec.alone x.1.uses s l = true → s.objWait l (s.vaOf l f.a) 64 = none →
    s.scratchAt l (s.vaOf l f.a) 64 false = .ok pa → s.poisoned pa 64 = false →
    s.layoutOk l x.2 (layoutOf (s.load pa 64)) (word % 65536) (word / 65536) = true →
    (∀ v, s.barrierVa f l = some v → ∃ b, s.scratchAt l v 16 true = .ok b) → (s.slotsHeld (coreOf (gidOf l))).length < 128 →
    (s.groups.find (gidOf l)).isSome = true →
    ∃ t, exec x.1 s = .next t ∧ (t.thread l).pc = nextAddr s.cur.pc ∧
      (∀ k, Spec.token f.h = some k → ((t.group (gidOf l)).token k).ops = ((s.group (gidOf l)).token k).ops + 1) ∧
      ∃ id c sl, t.colls.find id = some c ∧ sl ∈ c.slices ∧ sl.gid = gidOf l ∧ sl.tid = l ∧ sl.first = word % 65536 ∧ sl.count = word / 65536 ∧
        sl.tok = Spec.token f.h ∧ sl.barrier = (s.barrierVa f l).map (unalias (some (coreOf (gidOf l)))) ∧
        (s.openColl (gidOf l) handle = none →
          c.handle = handle ∧ c.record = s.load pa 64 ∧ c.gather = x.2 ∧ c.slices = [sl] ∧ c.started = false) ∧
        (∀ id' c', s.openColl (gidOf l) handle = some (id', c') → id = id' ∧ c.record = c'.record ∧ c.slices = c'.slices ++ [sl])

/-- R266, R270, R271, R276, R408: COLLECTIVE_START starts a collective that every live group of its workgroup has supplied, when what each
supplier did before has been performed. ELEMENT_LANDING lands
what is due: for a copy between one plain format the bytes of the unit, read at its source, stand at its destination, and no other byte
changes; the unit is due no longer. A sector of a TLOAD lands in its group's operand buffer.
R277, R278, R279, R420: COPY_FAULT_REPORT raises COPY_FAULT in a thread for the first parked element, and the elements of its page wait for an
answer; CRETRY takes the reported elements again, and CSKIP puts zeros where the destination could be written; either closes the report. -/
def Obligations.LandingsAndCopyFaults : Prop :=
  ((∀ (s : State) (id : Nat) (c : Coll), s.colls.find id = some c → c.started = false → (layoutOf c.record).toTile = false →
    s.supplied c = true → (∀ e ∈ s.groups, e.2.launch = c.launch → (s.launch c.launch).record.inst e.2 (s.launch c.launch).record.wgLevel = c.wg →
      ∃ x ∈ c.slices, x.gid = e.1) → (∃ x ∈ c.slices, x.left ≠ []) →
    ∃ t, exec (.collectiveStart id) s = .next t ∧ ∃ c', t.colls.find id = some c' ∧ c'.started = true ∧ c'.slices = c.slices) ∧
  (∀ (s : State) (id k i : Nat) (c : Coll) (x : CSlice) (ps pd : Nat → Nat), s.tloads.find id = none → s.colls.find id = some c → c.started = true →
    s.supplied c = true → c.slices.zipIdx.find? (fun y => inRanges k y.1.left) = some (x, i) → x.barrier = none → c.gather = false →
    let y := layoutOf c.record
    let n := elBytes y.dfmt
    let sec := y.dstVa k / 32
    Spec.plain y = true → (rangesAll x.left).filter (fun u => decide ((x.dueIn y u sec).1 < (x.dueIn y u sec).2)) = [k] →
    x.due y k = (0, n) → y.dstVa k % 32 + n ≤ 32 →
    (∀ j < n, s.probeSrc c.core c.space (((c.srcPieces y k).map (·.1)).headD 0 + j) = .ok (ps j)) →
    ((c.srcPieces y k).map (·.1)).headD 0 + n ≤ vaMod → y.dstVa k + n ≤ vaMod →
    (∀ j < n, s.probeDst c.core c.space (y.dstVa k + j) = .ok (pd j)) →
    (∀ j < n, pd j = pd 0 + j) → pd 0 % frameBytes + n ≤ frameBytes → (∀ j < n, inRegion 2 (ps j) = false) →
    ∃ t, exec (.elementLanding id k) s = .next t ∧ (∀ j < n, t.load (pd 0 + j) 1 = s.load (ps j) 1) ∧
      (∀ a, a < pd 0 ∨ pd 0 + n ≤ a → t.load a 1 = s.load a 1) ∧
      (∀ c', t.colls.find id = some c' → ∃ x', c'.slices[i]? = some x' ∧ x'.left = rangesDel k x.left)) ∧
  (∀ (s : State) (id k : Nat) (x : TLoad), s.tloads.find id = some x → inRanges k x.left = true → s.poisoned (x.src + 32 * k) 32 = false →
    x.barrier = none → s.live (gidOf x.tid) ≠ [] →
    ∃ t, exec (.elementLanding id k) s = .next t ∧
      (∀ j < 32, t.opByte (gidOf x.tid) (x.base + 32 * k + j) = ((s.load (x.src + 32 * k) 32).getD j 0).toNat) ∧
      (∀ x', t.tloads.find id = some x' → x'.left = rangesDel k x.left))) ∧
  ((∀ (s : State) (id tid : Nat) (c : Coll) (p : Park), s.colls.find id = some c → c.reportTo = none → c.report = [] → c.first s c.parked = some p →
    s.reportThread c p = some tid → (s.threads.find tid).isSome = true →
    ∃ t, exec (.copyFaultReport id) s = .next t ∧
      (∃ c', t.colls.find id = some c' ∧ c'.reportTo = some tid ∧ p ∈ c'.report ∧ c'.parked = c.parked) ∧
      ∃ r, (t.thread tid).reports = (s.thread tid).reports ++ [r] ∧ r.cause = .copyFault ∧
        r.i0 = BitVec.ofNat 64 (c.handle + c.slot * 2 ^ 56) ∧ r.i3 = BitVec.ofNat 64 p.va) ∧
  (∀ (f : AForm) (s : State) (l id : Nat) (c : Coll), s.namedReport l (s.src64 l f.a).toNat = some (id, c) →
    let y := layoutOf c.record
    ((Instr.cretry f).wf = true → Spec.ready (Instr.cretry f).uses s = true → Spec.alone (Instr.cretry f).uses s l = true →
      (∀ p ∈ c.report, p.kind ≠ 4) →
      ∃ t c', exec (.cretry f) s = .next t ∧ t.colls.find id = some c' ∧ c'.report = [] ∧ c'.reportTo = none ∧
        c'.parked = c.parked.filter (fun p => !c.report.contains p) ∧
        ∀ p ∈ c.report, ∀ x, c.slices[p.slice]? = some x → ∃ x', c'.slices[p.slice]? = some x' ∧ inRanges p.unit x'.left = true) ∧
    ((Instr.cskip f).wf = true → Spec.ready (Instr.cskip f).uses s = true → Spec.alone (Instr.cskip f).uses s l = true → y.toTile = false →
      (∀ p ∈ c.report, ∀ x, c.slices[p.slice]? = some x → x.barrier = none) →
      (∀ p, (s.part p).trctl.getLsbD 63 = false) →
      ∃ t, exec (.cskip f) s = .next t ∧
        (∀ c', t.colls.find id = some c' → c'.report = [] ∧ c'.parked = c.parked.filter (fun p => !c.report.contains p)) ∧
        ∀ p ∈ c.report, p.side = 0 → ∀ k, (c.dueOf p).1 ≤ k → k < (c.dueOf p).2 → ∀ pa, s.probeDst c.core c.space ((y.dstVa p.unit + k) % vaMod) = .ok pa →
          t.load pa 1 = [0])))

/-! ## The Firebox (R241, R247 to R263, R403 to R413) -/

/-- R248, R407, R408: TRES writes its record to a tile register that may hold it, TREL clears one, and TLOAD of a reservation starts a load: with a
barrier its thread goes on, without one it is suspended.
R262, R406, R409 to R413: a matrix instruction of a thread that meets no cause, with room in its core's queue, puts its operation at the end of
that queue with what it read, arms its token, and goes on; MREAD marks its four registers empty.
R255 to R259, R410: MMA with a block that passes its checks queues its part on every member's core, with the activation tile of that member's row
group; without a gang that is its own core alone. -/
def Obligations.MatrixOperationsAreQueued : Prop :=
  (∀ (f : AForm) (s : State) (l : Nat) (n : BitVec 4), f.res = .t n → (s.threads.find l).isSome = true →
    ((Instr.tres f).wf = true → Spec.ready (Instr.tres f).uses s = true → Spec.alone (Instr.tres f).uses s l = true →
      s.tileQueued (gidOf l) n.toNat = false → s.mayReserve (gidOf l) n.toNat (s.recordOf l f.a) = true →
      ∃ t, exec (.tres f) s = .next t ∧ t.getT (gidOf l) n.toNat = BitVec.ofNat 256 (leNat (s.dataBytes l f.a 32)) ∧
        (t.thread l).pc = nextAddr s.cur.pc) ∧
    ((Instr.trel f).wf = true → Spec.ready (Instr.trel f).uses s = true → Spec.alone (Instr.trel f).uses s l = true →
      s.tileQueued (gidOf l) n.toNat = false →
      ∃ t, exec (.trel f) s = .next t ∧ t.getT (gidOf l) n.toNat = 0 ∧ (t.thread l).pc = nextAddr s.cur.pc) ∧
    (∀ pa, (Instr.tload f).wf = true → Spec.ready (Instr.tload f).uses s = true → Spec.alone (Instr.tload f).uses s l = true →
      s.storesPending l = false → s.fillsPending l = false → (tloadOp f).cause s l = none →
      s.scratchAt l (s.vaOf l f.a) 64 false = .ok pa →
      let tl := s.tile (gidOf l) n.toNat
      ∃ t, exec (.tload f) s = .next t ∧
        (∃ id x, t.tloads.find id = some x ∧ x.tid = l ∧ x.src = pa ∧ x.base = 64 * tl.baseu ∧ x.left = [(0, 2 * tl.extu)] ∧
          x.barrier = (s.barrierVa f l).map (unalias (some (coreOf (gidOf l))))) ∧
        (f.b.omitted = false → (t.thread l).pc = nextAddr s.cur.pc) ∧
        (f.b.omitted = true → (t.thread l).st = .waiting .tload ∧ (t.thread l).pc = (s.thread l).pc))) ∧
  (∀ (f : AForm) (s : State) (l : Nat),
    let g := gidOf l
    let r := fun (n : BitVec 4) => s.tile g n.toNat
    let e := fun (n : BitVec 4) => stepE (fmtBits (r n).fmt) (partner f.pw.toNat (fmtBits (r n).fmt))
    let mayLoad := fun (n : BitVec 4) (k0 : Nat) => (r n).v = true ∧ badPair (fmtBits (r n).fmt) (partner f.pw.toNat (fmtBits (r n).fmt)) = false ∧
      s.emberBad (r n) = false ∧ (s.launchOf l).record.accs ≠ 0 ∧ k0 % (e n * 16 / (r n).n) = 0 ∧ k0 + e n * 16 / (r n).n ≤ (r n).k
    let mayMix := fun (d a : BitVec 4) (n : Nat) => n ∈ [16, 32, 64] ∧ (r a).v = true ∧ (r d).v = true ∧ (r a).sparse = 0 ∧ (r d).sparse = 0 ∧
      (r a).rows = (r d).rows ∧ (r a).k = (r d).k ∧ (r a).k % n = 0
    let dst := s.vaOf l f.b
    let w := s.src32 l f.c
    let mayDrain := 0 < (w.extractLsb' 16 16).toNat ∧ (w.extractLsb' 0 16).toNat + (w.extractLsb' 16 16).toNat ≤ 128 ∧ (w.extractLsb' 0 16).toNat ≤ 127 ∧
      dst % 32 = 0 ∧ s.inScratch l dst (256 * drainBytes f.lo.toNat * (w.extractLsb' 16 16).toNat) true = true ∧
      f.lo.toNat ∈ [0, 1, 2, 3, 4, 9] ∧ (f.h.arm = true → s.acqWait l = none)
    ∀ (d a : BitVec 4) (k : BitVec 3),
    ∀ x ∈ ([(.mloadw f, f.a = .t a ∧ mayLoad a (s.src32 l f.b).toNat, [a.toNat], .mloadw (s.getT g a.toNat) (s.src32 l f.b).toNat (e a)),
        (.mloadwI f, f.a = .t a ∧ mayLoad a f.imm16.toNat, [a.toNat], .mloadw (s.getT g a.toNat) f.imm16.toNat (e a)),
        (.mswap f, (s.launchOf l).record.accs ≠ 0, [], .mswap),
        (.mhad f, f.res = .t d ∧ f.a = .t a ∧ mayMix d a (s.src32 l f.b).toNat, [d.toNat, a.toNat],
          .mhad (s.getT g a.toNat) (s.getT g d.toNat) (s.src32 l f.b).toNat),
        (.mhadI f, f.res = .t d ∧ f.a = .t a ∧ mayMix d a f.imm16.toNat, [d.toNat, a.toNat],
          .mhad (s.getT g a.toNat) (s.getT g d.toNat) f.imm16.toNat),
        (.mzero f, f.res = .a k, [], .mzero k.toNat),
        (.mdrain f, f.a = .a k ∧ mayDrain, [], .mdrain k.toNat (unalias (some (coreOf g)) dst) (w.extractLsb' 0 16).toNat
          (w.extractLsb' 16 16).toNat f.lo.toNat f.sat),
        (.mread f, f.a = .a k, [], .mread k.toNat ((s.src32 l f.b).toNat % 128) ((s.src32 l f.b).toNat / 256 % 256) s.stamp)] :
        List (Instr × Prop × List Nat × MatOp)),
      x.1.wf = true → Spec.ready x.1.uses s = true → Spec.alone x.1.uses s l = true → (s.matq.getD (coreOf g) []).length < 32 → x.2.1 →
      ∃ t at', exec x.1 s = .next t ∧ (t.thread l).pc = nextAddr s.cur.pc ∧
        t.matq.getD (coreOf g) [] = s.matq.getD (coreOf g) [] ++
          [{ tid := l, tok := Spec.token x.1.uses.h, tiles := x.2.2.1, stamp := at', op := x.2.2.2 }] ∧
        (x.1 = .mread f → ∀ q ∈ regsOf l f.res 4, t.isEmpty q = true)) ∧
  (∀ (f : AForm) (s : State) (l pa : Nat), (Instr.mma f).wf = true → Spec.ready (Instr.mma f).uses s = true → Spec.alone (Instr.mma f).uses s l = true →
    s.objWait l (s.vaOf l f.a) 64 = none → s.scratchAt l (s.vaOf l f.a) 64 false = .ok pa →
    (∀ core ∈ (s.mmaParts l (s.load pa 64)).map (·.1),
      (s.matq.getD core []).length + ((s.mmaParts l (s.load pa 64)).map (·.1)).count core ≤ 32) →
    s.poisoned pa 64 = false → s.blockCause l [] (blockOf (s.load pa 64)) = none →
    ∃ t tag k0 e at', exec (.mma f) s = .next t ∧ (t.thread l).pc = nextAddr s.cur.pc ∧ (s.ahead (gidOf l)).active = some (tag, k0, e) ∧
      ((blockOf (s.load pa 64)).gang = [] → t.matq.getD (coreOf (gidOf l)) [] = s.matq.getD (coreOf (gidOf l)) [] ++
        [{ tid := l, tok := Spec.token f.h, tiles := [(blockOf (s.load pa 64)).atile], stamp := at',
           op := .mma (s.load pa 64) (s.getT (gidOf l) (blockOf (s.load pa 64)).atile) (gidOf l) (gidOf l) e (tileOf tag).fmt
             (some (s.tile (gidOf l) (blockOf (s.load pa 64)).atile).fmt) }]) ∧
      ((blockOf (s.load pa 64)).gang ≠ [] →
        let peers := s.gangPeers (gidOf l) (blockOf (s.load pa 64)).gang
        ∀ m g, peers[m]? = some (some g) → ∃ q ∈ t.matq.getD (coreOf g) [], q.tid = l ∧ q.tok = Spec.token f.h ∧
          let rows := (peers.getD (m % (blockOf (s.load pa 64)).rg) none).getD goneGid
          q.op = .mma (s.load pa 64) (s.getT rows (blockOf (s.load pa 64)).atile) g rows e (tileOf tag).fmt
            ((s.rowSource (gidOf l) (blockOf (s.load pa 64))).map (fun r => (s.tile r (blockOf (s.load pa 64)).atile).fmt))))

/-- R241, R242, R252 to R256, R260 to R262, R409 to R413: MATRIX_OP_EXECUTE takes the oldest operation off its core's queue and runs it: MLOADW
fills the shadow plane, MSWAP exchanges the planes, MZERO empties an accumulator, an MMA's own part adds to every entry the exact sum of its
products modulo 2^96, MREAD delivers an entry with the state word, MHAD writes the transform of each run of n of its source tile into its
destination tile, for elements of 16 and of 8 bits, and MDRAIN stores its rows densely at its destination, each entry in the format it
names, and changes no other byte of memory and no accumulator. An MMA that has a part in a queue that another operation heads does not
run (R259, R262; log 80). -/
def Obligations.MatrixOperationsRun : Prop :=
  (∀ (s : State) (core : Nat) (q : MatEnt) (rest : List MatEnt), s.matq.getD core [] = q :: rest → s.drainWaits q = false →
    (∃ x ∈ s.matq, x.2.any (·.partOf q) = true ∧ x.2.head?.any (·.partOf q) = false) → exec (.matrixOpExecute core true) s = .next s) ∧
  ∀ (s : State) (core : Nat) (q : MatEnt) (rest : List MatEnt), s.matq.getD core [] = q :: rest → s.live (gidOf q.tid) ≠ [] →
    s.matq.filter (fun x => x.1 == core || x.2.any (·.partOf q)) = [(core, q :: rest)] → rest.all (fun e => !e.partOf q) = true →
    s.drainWaits q = false →
    let g := gidOf q.tid
    (∀ k row col fid, q.op = .mread k row col fid → (s.getAcc g k).rowOk row = true) →
    (∀ k dst first count fmt sat, q.op = .mdrain k dst first count fmt sat → ∀ r < count, (s.getAcc g k).rowOk (first + r) = true) →
    ∃ t, exec (.matrixOpExecute core true) s = .next t ∧ t.matq.getD core [] = rest ∧
      (∀ tag k0 e, q.op = .mloadw tag k0 e → ∃ p, t.planesS.find g = some p ∧ p.tag = tag ∧ p.k0 = k0 ∧ p.e = e ∧
        ((tileOf tag).sparse = 0 → e ≤ 128 → ∀ c j, c < min 256 (tileOf tag).rows → j < e → p.codes.getD (c * 128 + j) 0 = s.getCode g (tileOf tag) c (k0 + j))) ∧
      (q.op = .mswap → t.planesA.find g = s.planesS.find g ∧ t.planesS.find g = s.planesA.find g) ∧
      (∀ k, q.op = .mzero k → t.getAcc g k = {}) ∧
      (∀ b tile el wf af p k, q.op = .mma b tile g g el wf af → s.planesA.find g = some p → (s.groups.find g).isSome = true →
        let bl := blockOf b
        let x := tileOf tile
        let old := s.getAcc g k
        bl.accs = [k] → bl.rows ≤ 128 → p.e = el → (tileOf p.tag).fmt = wf → x.v = true → x.sparse = 0 → af.all (x.fmt == ·) = true →
        stepE (fmtBits wf) (fmtBits x.fmt) = el → badPair (fmtBits wf) (fmtBits x.fmt) = false →
        (old.blank = true ∨ (old.anchor = bl.anchor ∧ old.h.toNat = bl.h)) → bl.ak0 % p.span = 0 → bl.ak0 + p.span ≤ x.k → bl.arow0 + bl.rows ≤ x.rows →
        (t.getAcc g k).blank = false ∧ (t.getAcc g k).anchor = bl.anchor ∧
        ∀ i c (z : Nat → Int), i < bl.rows → c < 256 →
          (∀ j < p.span, ∃ ix, Flt.toAX96 (Flt.mul (s.elem g x (bl.arow0 + i) (bl.ak0 + j)) (s.weight g p c j)) bl.anchor.toInt = some (z j, ix)) →
          (t.getAcc g k).entries.getD (i * 256 + c) 0 = old.entries.getD (i * 256 + c) 0 + BitVec.ofInt 96 ((List.range p.span).map z).sum) ∧
      (∀ k row col fid x l n, q.op = .mread k row col fid → s.fills.find fid = some x → x.dst = [.v l n, .v l (n + 1), .v l (n + 2), .v l (n + 3)] →
        x.flag = none → x.gone = false → n + 3 < 256 →
        (t.getV l n) = ((s.getAcc g k).entries.getD (row * 256 + col) 0).extractLsb' 0 32 ∧
        (t.getV l (n + 2)) = ((s.getAcc g k).entries.getD (row * 256 + col) 0).extractLsb' 64 32 ∧
        (t.getV l (n + 3)) = BitVec.ofNat 32 (s.getAcc g k).word) ∧
      (∀ src dst n, q.op = .mhad src dst n → t.accs = s.accs ∧ t.planesA = s.planesA ∧ t.planesS = s.planesS ∧ t.mem = s.mem ∧
        let x := tileOf src
        let y := tileOf dst
        let stop := fun (u : Tile) => 64 * u.baseu + 48 * ((u.k - 1) / u.p + 1) * u.rows
        (0 < n → x.rows = y.rows → x.k = y.k → x.k % n = 0 → x.sparse = 0 → x.fmt ≤ 4 → y.fmt ≤ 4 →
          (dst = src ∨ stop x ≤ 64 * y.baseu ∨ stop y ≤ 64 * x.baseu) →
          ∀ r j, r < x.rows → j < x.k → t.getCode g y r j = Flt.encodeCode y.fmt 0 false
            ((hadamard ((List.range n).map (fun i => s.elem g x r (j / n * n + i)))).getD (j % n) .nan) % 2 ^ fmtBits y.fmt)) ∧
      (∀ k dst first count fmt sat (e : Nat → PageEnt), q.op = .mdrain k dst first count fmt sat →
        let n := drainBytes fmt
        let pa := flatPa dst
        let a := s.getAcc g k
        dst % 32 = 0 → scratchBase ≤ pa → pa + 256 * n * count ≤ scratchBase + scratchSize →
        (∀ i < 256 * n * count, s.lostDie (pa + i) = false ∧ s.xlate (s.group g).space none (dst + i) = .leaf (pa + i) (e i)) →
        t.accs = s.accs ∧
        (∀ r i, r < count → i < 256 → t.load (pa + (256 * r + i) * n) n =
          toLE n (Flt.drain fmt sat a.nan (a.entries.getD ((first + r) * 256 + i) 0) a.anchor.toInt a.h.toNat)) ∧
        ∀ b, b < pa ∨ pa + 256 * n * count ≤ b → t.load b 1 = s.load b 1)

/-! ## System (R79 to R83, R286, R301, R308, R360, R423 to R431) -/

/-- R286, R423, R425 to R427: GETSR delivers the registers of R423, those of 64 bits as 64 bits, and marks its destination empty for GTIME, STOLEN and
PATHSIG; SETSR of TRAPSTATUS clears the sticky bits that it writes as 0 and changes no register; CNTRD marks its destination empty, and
LOAD_FILL delivers the counter as it is then. -/
def Obligations.SpecialRegisters : Prop :=
  (∀ (f : IForm) (s : State), (Instr.getsr f).wf = true → Spec.ready (Instr.getsr f).uses s = true →
    ∃ t, exec (.getsr f) s = .next t ∧
      ∀ l, Spec.stands (Instr.getsr f).uses f.d s l = true →
        let g := s.group (gidOf l)
        let h := s.thread l
        (∀ x ∈ [(0x000, g.laneBase + level0 l), (0x001, level0 l + g.width * g.gidx), (0x002, gidOf l % 512), (0x003, g.width), (0x008, level0 l),
            (0x009, g.levels.getD 0 0), (0x00A, g.levels.getD 1 0), (0x00B, g.levels.getD 2 0), (0x00C, g.levels.getD 3 0),
            (0x00D, g.levels.getD 4 0), (0x00E, g.levels.getD 5 0), (0x00F, g.levels.getD 6 0), (0x010, coreOf (gidOf l) % 64),
            (0x011, coreOf (gidOf l) % 64 / 8), (0x012, coreOf (gidOf l) / 64), (0x013, g.space), (0x014, if g.space = 64 then 2 else 1 + 4 * g.space),
            (0x020, h.trapCause.toNat), (0x026, h.trapStatus), (0x02A, g.budget)],
          f.imm = BitVec.ofNat 32 x.1 → t.src32 l f.d = BitVec.ofNat 32 x.2) ∧
        (∀ x ∈ [(0x018, g.cycle), (0x01B, s.ref (dieOf (coreOf (gidOf l)))), (0x021, h.trapPc.setWidth 64), (0x022, h.info0), (0x023, h.info1),
            (0x024, h.info2), (0x025, h.info3), (0x02B, g.scrBase.setWidth 64)],
          f.imm = BitVec.ofNat 32 x.1 → t.src64 l f.d = x.2) ∧
        (f.imm = 0x029 → t.src64 l f.d = BitVec.ofNat 64 ((s.part g.space).curSerial * 2 ^ 32 + (s.part g.space).curGen)) ∧
        (f.imm ∈ [0x019, 0x01A, 0x028] → ∀ r ∈ regsOf l f.d 2, t.isEmpty r = true)) ∧
  (∀ (f : IForm) (s : State), (Instr.setsr f).wf = true → Spec.ready (Instr.setsr f).uses s = true →
    ∃ t, exec (.setsr f) s = .next t ∧ t.vreg = s.vreg ∧ t.ureg = s.ureg ∧ t.preg = s.preg ∧
      ∀ l, Spec.acts (Instr.setsr f).uses s l = true → s.beyond (Instr.setsr f).uses l = false →
        (t.thread l).inHandler = (s.thread l).inHandler ∧ (t.thread l).trapPc = (s.thread l).trapPc ∧
        (t.thread l).paramBound = ((s.thread l).paramBound && (f.imm ≠ 0x26 || (s.src32 l f.a).getLsbD 0)) ∧
        (t.thread l).ceiling = ((s.thread l).ceiling && (f.imm ≠ 0x26 || (s.src32 l f.a).getLsbD 1))) ∧
  (∀ (f : VForm) (s : State), (Instr.cntrd f).wf = true → Spec.ready (Instr.cntrd f).uses s = true →
    ∃ t, exec (.cntrd f) s = .next t ∧ ∀ l, Spec.stands (Instr.cntrd f).uses f.d s l = true →
      (∀ r ∈ regsOf l f.d 2, t.isEmpty r = true) ∧
      ∃ id x, t.fills.find id = some x ∧ x.tid = l ∧ x.dst = regsOf l f.d 2 ∧ x.what = .ctr (s.src32 l f.a).toNat (s.group (gidOf l)).launch) ∧
  (∀ (f : IForm) (s : State), (Instr.cntrdI f).wf = true → Spec.ready (Instr.cntrdI f).uses s = true →
    ∃ t, exec (.cntrdI f) s = .next t ∧ ∀ l, Spec.stands (Instr.cntrdI f).uses f.d s l = true →
      (∀ r ∈ regsOf l f.d 2, t.isEmpty r = true) ∧
      ∃ id x, t.fills.find id = some x ∧ x.tid = l ∧ x.dst = regsOf l f.d 2 ∧ x.what = .ctr f.imm.toNat (s.group (gidOf l)).launch) ∧
  (∀ (s : State) (id g k i p la : Nat) (x : Fill), s.fills.find id = some x → x.what = .ctr (ctrNo 1 p i) la → x.dst = [.u g k] → x.flag = none →
    x.gone = false → x.acqr = false → i < 2 ^ 20 → i ≠ 1 → p < 64 → (s.launch la).space = p →
    ∃ t, exec (.loadFill id) s = .next t ∧ t.fills.find id = none ∧ t.getU g k = s.ctrs.getD (ctrNo 1 p i) 0)

/-- R29, R150, R154, R158, R368 to R370, R425 to R427: YIELD, SLEEP, NOPRE, PREOK, GETSR, SETSR and CNTRD complete when their lanes can take part, and change no
register but the destinations of acting lanes, no accumulator, plane or operand buffer, nothing of a copy or a matrix operation, and no byte
of memory unless a partition has its trace enabled (R305). -/
def Obligations.QuietFrame : Prop :=
  ∀ (f : VForm) (j : IForm) (s : State), ∀ i ∈ [Instr.yield f, .sleep j, .nopre f, .preok f, .getsr j, .setsr j, .cntrd f, .cntrdI j],
    i.wf = true → Spec.ready i.uses s = true →
    ∃ t, exec i s = .next t ∧
      (∀ l n, n < 256 → (∀ m, Spec.acts i.uses s m = true → RegName.v l n ∉ i.uses.writes m) → t.getV l n = s.getV l n) ∧
      (∀ g n, n < 64 → (∀ m, Spec.acts i.uses s m = true → RegName.u g n ∉ i.uses.writes m) → t.getU g n = s.getU g n) ∧
      t.preg = s.preg ∧ t.treg = s.treg ∧ t.pinreg = s.pinreg ∧ t.pinDir = s.pinDir ∧ t.accs = s.accs ∧ t.planesA = s.planesA ∧
      t.planesS = s.planesS ∧ t.opbuf = s.opbuf ∧ t.stores = s.stores ∧ t.colls = s.colls ∧ t.matq = s.matq ∧ t.pages = s.pages ∧
      t.lcb = s.lcb ∧ t.refCount = s.refCount ∧ t.coreCycle = s.coreCycle ∧ t.pkg = s.pkg ∧
      (∀ l, (t.thread l).inHandler = (s.thread l).inHandler ∧ (t.thread l).trapPc = (s.thread l).trapPc ∧
        (t.thread l).trapCause = (s.thread l).trapCause ∧ (t.thread l).sig = (s.thread l).sig) ∧
      ((∀ p, (s.part p).trctl.getLsbD 63 = false) → ∀ a, t.rdByte a = s.rdByte a)

/-- R79, R80, R82, R83, R197, R428: SCALL of a group with its stores and reads performed makes a call record with the arguments of its uniform registers; with room in the
call queue it is written and the threads wait for the reply, without room they wait for CALL_RECORD_POST. CALL_SERVE takes the record of
the flow whose turn it is, with a deficit of at least 250: the size that a record counts for is the model's choice (log 29); CALL_REPLY writes the results and the threads go on, and a reply to no call is counted. -/
def Obligations.Calls : Prop :=
  (∀ (f : IForm) (s : State) (l : Nat), (Instr.scall f).wf = true → Spec.ready (Instr.scall f).uses s = true → Spec.alone (Instr.scall f).uses s l = true →
    s.groupUnheld (gidOf l) = false → f.h.arm = false → (∀ e ∈ (s.part (s.spaceOf l)).calls, e.2.tid = l → e.2.posted = true) →
    (∀ h q, s.kindQueue (s.spaceOf l) 2 = some (h, q) → s.queueSound (s.spaceOf l) q = true) →
    let tag := (s.part (s.spaceOf l)).freeTag
    ∃ t c, exec (.scall f) s = .next t ∧ (t.part (s.spaceOf l)).calls.find tag = some c ∧
      c.gid = gidOf l ∧ c.callno = (f.imm.setWidth 16).toNat ∧ c.seq = (s.launchOf l).seq ∧
      (∀ n, f.a = .g n → c.args = (List.range (f.imm.extractLsb' 16 3).toNat).map (fun i => s.getU (gidOf l) (n.toNat + i))) ∧
      (t.thread l).pc = (s.thread l).pc ∧
      (s.kindQueue (s.spaceOf l) 2 = none → c.posted = false ∧ (t.thread l).st = .waiting (.callRing tag)) ∧
      (∀ h q, s.kindQueue (s.spaceOf l) 2 = some (h, q) → s.queue (s.spaceOf l) h = some q → q.kind = 2 →
        Spec.room s (s.spaceOf l) q = true →
        c.posted = true ∧ (t.thread l).st = .waiting (.call tag) ∧ ∃ q', t.queue (s.spaceOf l) h = some q' ∧ q'.tail = (q.tail + 1) % 2 ^ 32)) ∧
  (∀ (s : State) (gid tag h : Nat) (c : CallRec) (q : Queue), let sp := (s.group gid).space
    (s.part sp).calls.find? (fun e => e.2.gid == gid && !e.2.posted) = some (tag, c) → (s.part sp).calls.find tag = some c → c.tag = tag → c.tok = none →
    s.kindQueue sp 2 = some (h, q) → s.queue sp h = some q → q.kind = 2 → Spec.room s sp q = true →
    ∃ t, exec (.callRecordPost gid) s = .next t ∧ (∃ c', (t.part sp).calls.find tag = some c' ∧ c'.posted = true) ∧
      (∃ q', t.queue sp h = some q' ∧ q'.tail = (q.tail + 1) % 2 ^ 32) ∧
      ∀ l ∈ s.live gid, (s.thread l).st = .waiting (.callRing tag) → (t.thread l).st = .waiting (.call tag)) ∧
  (∀ (s : State) (p h : Nat) (q : Queue) (c : CallRec), p < 64 → s.kindQueue p 2 = some (h, q) → s.queue p h = some q → q.count ≠ 0 →
    (s.part p).frozen = false → s.queueSound p q = true → s.mayPop p q = true → s.served .service = true → s.pkg.arbiter = 2 * p →
    250 ≤ (s.part p).flowCall →
    (s.part p).calls.find (fieldLE (s.headEntry p q) 8 4) = some c → c.tag = fieldLE (s.headEntry p q) 8 4 → c.posted = true → c.taken = false → q.kind = 2 →
    ∃ t, exec (.callServe p false) s = .next t ∧ (∃ q', t.queue p h = some q' ∧ q'.head = (q.head + 1) % 2 ^ 32) ∧
      ∃ c', (t.part p).calls.find c.tag = some c' ∧ c'.taken = true) ∧
  (∀ (s : State) (space tag : Nat) (c : CallRec) (res : List W64), (s.part space).calls.find tag = some c → c.tag = tag → c.taken = true → c.reply = none →
    hyperNumber c.callno = false → (s.group c.gid).halted = false → c.tok = none → c.resBase + c.nres ≤ 64 →
    ∃ t, exec (.callReply space tag res) s = .next t ∧ (t.part space).calls.find tag = none ∧
      (∀ i < c.nres, t.getU c.gid (c.resBase + i) = res.getD i 0) ∧
      ∀ l ∈ s.live c.gid, (s.thread l).st = .waiting (.call tag) → (t.thread l).st = .ready ∧ (t.thread l).pc = nextAddr (s.thread l).pc) ∧
  (∀ (s : State) (space tag : Nat) (res : List W64), (s.part space).calls.find tag = none →
    exec (.callReply space tag res) s = .next (s.bump 6 space 1 1))

/-- R70, R308, R360, R431: SIGRD suspends its thread with a request for a report, SIGRD_REPORT_DONE writes the report with the nonce and the thread goes on;
HALT and STOP halt a co-resident instance that no hold keeps running and that has nothing pending, its groups stay halted until RESUME. -/
def Obligations.ReportsAndStops : Prop :=
  (∀ (f : VForm) (s : State) (l b n : Nat), (Instr.sigrd f).wf = true → Spec.ready (Instr.sigrd f).uses s = true → Spec.alone (Instr.sigrd f).uses s l = true →
    let buf := (s.src64 l f.a).toNat % vaMod
    let non := (s.src64 l f.b).toNat % vaMod
    s.acqWait l = none → s.ldWait l [non, non + 32] 32 true = none → s.scratchAt l buf 64 true = .ok b →
    (∃ e, s.scratchAt l ((buf + 576) % vaMod) 64 true = .ok e) →
    s.scratchAt l non 64 false = .ok n → s.poisoned n 64 = false →
    ∃ t, exec (.sigrd f) s = .next t ∧ (t.thread l).st = .waiting .report ∧ (t.thread l).pc = (s.thread l).pc ∧
      t.sigrds.find l = some { buf := b, nonce := s.load n 64, subject := if f.sel = 0 then s.spaceOf l else 0xFF }) ∧
  (∀ (s : State) (l : Nat) (q : SigReq), s.sigrds.find l = some q → q.nonce.length = 64 → q.buf % 64 = 0 → q.buf % frameBytes + 592 ≤ frameBytes →
    (s.threads.find l).isSome = true → (s.thread l).st = .waiting .report → (s.group (gidOf l)).halted = false →
    s.lostDie q.buf = false → s.needsAside (s.spaceOf l) q.buf = false → s.served .service = true → (s.part (s.spaceOf l)).frozen = false →
    s.spaceOf l = 64 ∨ (s.pkg.arbiter = 2 * s.spaceOf l ∧ 250 ≤ (s.part (s.spaceOf l)).flowCall) →
    (∀ p, (s.part p).trctl.getLsbD 63 = false) →
    ∃ t, exec (.sigrdReportDone l) s = .next t ∧ t.sigrds.find l = none ∧ (t.thread l).st = .ready ∧ (t.thread l).pc = nextAddr (s.thread l).pc ∧
      t.pkg.reportSeq = s.pkg.reportSeq + 1 ∧ t.load q.buf 4 = toLE 4 0x5441584B ∧ t.load (q.buf + 32) 64 = q.nonce ∧
      (∀ a, a < q.buf ∨ q.buf + 592 ≤ a → t.load a 1 = s.load a 1)) ∧
  (∀ (f : VForm) (s : State) (l : Nat), (Instr.haltW f).wf = true → Spec.ready (Instr.haltW f).uses s = true → Spec.alone (Instr.haltW f).uses s l = true →
    (∀ x ∈ s.instGroups (s.group (gidOf l)).launch (s.group (gidOf l)).inst, (s.group x).hold = none ∨ x = gidOf l) → s.groups.sorted = true →
    (s.groups.find (gidOf l)).isSome = true →
    ∃ t, exec (.haltW f) s = .next t ∧
      ∀ x ∈ s.instGroups (s.group (gidOf l)).launch (s.group (gidOf l)).inst, (t.group x).halted = true ∧ (t.group x).stopped = true) ∧
  (∀ (s : State) (p die core slot addr len : Nat), die < 4 → core < 64 → slot < 512 →
    let gid := (die * 64 + core) * 512 + slot
    (∃ g, s.groups.find gid = some g ∧ g.space = p) → (s.part p).sealed = false → (s.part p).frozen = false → addr ≠ 0 → s.dumpOk gid addr len = true →
    (∀ x ∈ s.instGroups (s.group gid).launch (s.group gid).inst, (s.group x).hold = none) → s.groups.sorted = true →
    ∃ t, exec (.stopWg (.owner p) die core slot addr len) s = .next t ∧
      ∀ x ∈ s.instGroups (s.group gid).launch (s.group gid).inst, (t.group x).halted = true ∧ (t.group x).stopped = true) ∧
  (∀ (s : State) (p die core slot : Nat), die < 4 → core < 64 → slot < 512 →
    let gid := (die * 64 + core) * 512 + slot
    (∃ g, s.groups.find gid = some g ∧ g.space = p) → (s.part p).sealed = false → (s.part p).frozen = false →
    ∃ t, exec (.resumeWg (.owner p) die core slot) s = .next t ∧
      (∀ x ∈ s.instGroups (s.group gid).launch (s.group gid).inst, (t.group x).stopped = false) ∧ t.pkg.replies = s.pkg.replies ++
        [{ who := .owner p, status := 0, values := [] }])

/-! ## Commands, registers and the package (R30 to R47, R52, R74, R89, R167) -/

/-- R49, R52, R68: a write of a register out of range is INVALID; during a sealed act of its partition BUSY; a word outside the limits of a
field that the writer may write is INVALID and changes nothing. Otherwise the fields that the writer may write take the word, the others of
the register stay (but STEP of ISLOP, which follows CEIL), and the status is REFUSED when a field was refused. A write of LINKST whose
UPREQ is 1 asks for the next higher rate (R40, R42): that it leaves the other bits is the model's choice, and whether the eye passes is a
free value (log 83).
R49, R68, R74, R89, R167, R214: REGRD and REGWR of a register of a halted group of the owner answer its value and the outcome code, and REGWR
writes a register that is full and on the core, a pin register as PIN and UNPIN do; during a sealed act or a freeze of the partition they,
STOP and RESUME are BUSY; OWNERSHIP_QUERY shows OWNER and FIX; KINDLING_REBIND binds a core to a queue set. -/
def Obligations.CommandRegisters : Prop :=
  ((∀ (s : State) (who : Who) (v : W64) (c : CtlReg) (p : Nat) (j : Fin 40),
  ∀ x ∈ ([(.registerWrite who c v, .ctl c), (.pframesWrite who p v, .pframes p), (.trctlWrite who p v, .trctl p),
      (.islopWrite who j v, .islop j.val)] : List (Instr × Reg)),
    let fs := s.fields x.2
    let may := fun (f : Field) => (f.right who (s.regPart x.2)).writes
    let refused := fs.any (fun f => !may f && (f.op.writes || f.own.writes || f.aud.writes))
    let w := mergeFields fs who (s.regPart x.2) v.toNat
    (∀ k, who = .operator → x.2 = .ctl (.linkst k) → v.getLsbD 4 = false) →
    (x.2.there = false → exec x.1 s = .next (s.answer who 2)) ∧
    (x.2.there = true → (∃ q, s.regPart x.2 = some q ∧ s.busyPart q = true) → exec x.1 s = .next (s.answer who 4)) ∧
    (x.2.there = true → (∀ q, s.regPart x.2 = some q → s.busyPart q = false) →
      (fs.any may = true → s.wordFits x.2 w = false → exec x.1 s = .next (s.answer who 2)) ∧
      ((fs.any may = true → s.wordFits x.2 w = true) →
        ∃ t, exec x.1 s = .next t ∧
          t.pkg.replies = s.pkg.replies ++ [{ who := who, status := if refused then 1 else 0, values := [] }] ∧
          ∀ (n : Nat) (f : Field), fs[n]? = some f → ∃ g, (t.fields x.2)[n]? = some g ∧ g.lo = f.lo ∧ g.width = f.width ∧
            (may f = true → g.val % 2 ^ f.width = v.toNat / 2 ^ f.lo % 2 ^ f.width) ∧
            (may f = false → (∀ i, x.2 ≠ .islop i) → g.val % 2 ^ f.width = f.val % 2 ^ f.width)))) ∧
  (∀ (s : State) (k : Nat) (v : W64), k < 17 → v.getLsbD 4 = true →
    let l := s.link k
    let pass := Config.eyePasses k l.retry
    (l.state = 1 → l.rate ≠ 0 → pass = true → ∃ t, exec (.registerWrite .operator (.linkst k) v) s = .next t ∧
      t.link k = { l with rate := l.rate - 1, state := 2, retry := min 255 (l.retry + 1) } ∧
      t.pkg.replies = s.pkg.replies ++ [{ who := .operator, status := 0, values := [] }]) ∧
    (l.state ≠ 1 ∨ l.rate = 0 ∨ pass = false →
      exec (.registerWrite .operator (.linkst k) v) s = .next (s.answer .operator 2)))) ∧
  ((∀ (s : State) (p die core slot cls thread number : Nat) (v : W64), die < 4 → core < 64 → slot < 512 → cls < 4 →
    number < [256, 64, 16, 8].getD cls 0 →
    let gid := (die * 64 + core) * 512 + slot
    (∃ g, s.groups.find gid = some g ∧ g.space = p ∧ g.halted = true ∧ (cls % 2 = 0 → thread < g.width)) →
    (s.part p).sealed = false → (s.part p).frozen = false →
    let tid := gid * 64 + thread
    let r := (s.launch (s.group gid).launch).record
    let gone := (s.thread tid).st == .exited
    let p0 := cls = 2 ∧ number = 0
    let gated := [decide (r.nv ≤ number) || gone, decide (r.ng ≤ number), !r.pclass || gone, !r.pinclass].getD cls false
    let empty := [s.isEmpty (.v tid number), s.isEmpty (.u gid number), s.isEmpty (.p tid number), false].getD cls false
    let code := if p0 then 0 else if gated then 1 else if empty then 2 else if (s.group gid).spilt.getLsbD ([0, 2, 1, 4].getD cls 0) then 3 else 0
    let held := fun (u : State) =>
      [(u.getV tid number).toNat, (u.getU gid number).toNat, (u.getP tid number).toNat, (u.getPin gid number).toNat].getD cls 0
    let value := if code = 0 then held s else if code = 3 then s.regValue gid cls thread number else 0
    exec (.regrd (.owner p) die core slot cls thread number) s =
      .next (s.answer (.owner p) 0 [BitVec.ofNat 64 value, BitVec.ofNat 64 code]) ∧
    ((cls = 3 → ∀ l ∈ s.live gid, s.fillsPending l = false ∧ s.storesPending l = false) →
    ∃ t, exec (.regwr (.owner p) die core slot cls thread number v) s = .next t ∧
      t.pkg.replies = s.pkg.replies ++ [{ who := .owner p, status := 0, values := [BitVec.ofNat 64 code] }] ∧
      (code = 0 → cls < 3 → held t = if p0 then 0xFF else v.toNat % 2 ^ ([32, 64, 8].getD cls 0)) ∧
      (code = 0 → cls = 3 → (t.getPin gid number).getLsbD 63 = v.getLsbD 63 ∧
        (t.getPin gid number).setWidth 48 = if v.getLsbD 63 then v.setWidth 48 else (s.getPin gid number).setWidth 48) ∧
      (code ≠ 0 → held t = held s))) ∧
  (∀ (s : State) (who : Who) (die core slot cls thread number : Nat) (v : W64), die < 4 → core < 64 → slot < 512 → (∀ p, who ≠ .owner p) →
    exec (.regrd who die core slot cls thread number) s = .next (s.answer who 1 [BitVec.ofNat 64 (refusedReg cls)]) ∧
    exec (.regwr who die core slot cls thread number v) s = .next (s.answer who 1)) ∧
  (∀ (s : State) (p die core slot cls thread number addr len : Nat) (v : W64), die < 4 → core < 64 → slot < 512 →
    (∀ g, s.groups.find ((die * 64 + core) * 512 + slot) = some g → g.space = p) → (s.part p).sealed = true ∨ (s.part p).frozen = true →
    ∀ i ∈ [Instr.regrd (.owner p) die core slot cls thread number, .regwr (.owner p) die core slot cls thread number v,
        .stopWg (.owner p) die core slot addr len, .resumeWg (.owner p) die core slot],
      exec i s = .next (s.answer (.owner p) 4)) ∧
  (∀ (s : State) (who : Who) (f : Nat), f < dramFrames + 32768 →
    let o := s.frame f
    let busy := s.busyPart o.owner || (match who with | .owner p => s.busyPart p | _ => false)
    (busy = true → exec (.ownershipQuery who f) s = .next (s.answer who 4)) ∧
    (busy = false → ∃ st v, exec (.ownershipQuery who f) s = .next (s.answer who st [v]) ∧
      (v.toNat / 2 ^ 25 % 2 ^ 7 = if (match who with | .owner p => p != o.owner | _ => false) then refusedBits 7 else o.owner % 2 ^ 7) ∧
      (v.toNat / 2 ^ 20 % 2 = if who = .operator ∨ who = .owner o.owner then (if o.fix then 1 else 0) else refusedBits 1) ∧
      (who = .owner o.owner → v.toNat % 2 ^ 14 = o.maps % 2 ^ 14 ∧ v.toNat / 2 ^ 14 % 2 ^ 4 = o.gen % 2 ^ 4))) ∧
  (∀ (s : State) (core : Fin 64) (q : KindSet),
    let kindling := s.pkg.kindling.set core.val q
    let room := 1000 * (kindling.filter (· == KindSet.service)).length
    (s.shares 64 ≤ room → ∃ t, exec (.kindlingRebind .operator core q) s = .next t ∧ t.pkg.kindling = kindling ∧
      t.pkg.replies = s.pkg.replies ++ [{ who := .operator, status := 0, values := [] }]) ∧
    (room < s.shares 64 → exec (.kindlingRebind .operator core q) s = .next (s.answer .operator 2))))

/-- R34 to R38, R310: power-on and a device reset leave the reset machine at stage 0 with the clusters that passed, and keep host memory, the
Soot record as last written, and the sequences; each start makes fresh keys, and a certificate of the boot after which the identity key is
used no more (R55, R69); a power loss leaves it without supply. The stages follow one another: host attach; Ember mode
on the lowest die whose clusters all passed, else the lowest with one that passed; full compute; full service. -/
def Obligations.PowerAndBringUp : Prop :=
  (∀ (s : State) (passed : BitVec 32),
  ∀ x ∈ ([(.powerOn passed, true), (.deviceReset passed, true), (.powerLoss, false)] : List (Instr × Bool)),
    (x.1 = .powerOn passed → s.pkg.supply = false) →
    ∃ t, exec x.1 s = .next t ∧ t.pkg.supply = x.2 ∧ t.pkg.stage = 0 ∧ t.groups = [] ∧ t.threads = [] ∧ t.launches = [] ∧ t.pages = [] ∧
      t.own = [] ∧ t.queues = [] ∧ t.part 64 = { Part.auditor with
        key := s.pkg.draws + 2, bond := s.pkg.draws + 3, lastReading := (s.part 64).lastReading } ∧
      (s.parts.sorted = true → ∀ p < 64, t.part p = { lastReading := (s.part p).lastReading }) ∧
      t.pkg.sysKey = s.pkg.draws ∧ t.pkg.sysBond = s.pkg.draws + 1 ∧ t.pkg.sessions = [] ∧ t.pkg.soot = s.pkg.soot ∧
      t.pkg.reportSeq = s.pkg.reportSeq ∧ t.pkg.readingSeq = s.pkg.readingSeq ∧
      (x.2 = true → t.pkg.sootLive = s.pkg.sootLive ∧ t.pkg.passed = passed ∧ t.pkg.boots = s.pkg.boots + 1 ∧ t.pkg.draws = s.pkg.draws + 4 ∧
        t.pkg.identityUsed = true ∧ t.pkg.bootCert = some (s.pkg.boots + 1)) ∧
      ∀ a, t.rdByte a = if inRegion 2 a then s.rdByte a else 0) ∧
  (∀ s : State, s.pkg.stage = 0 → ∃ t, exec .stageHostAttach s = .next t ∧ t.pkg.stage = 1 ∧ t.parts = s.parts ∧ t.mem = s.mem) ∧
  (∀ (s : State) (d : Nat), s.pkg.stage = 1 → d < 4 →
    let whole := fun (e : Nat) => s.pkg.passed &&& dieMask e = dieMask e
    let some' := fun (e : Nat) => s.pkg.passed &&& dieMask e ≠ 0
    ((whole d ∧ ∀ e < d, ¬whole e) ∨ ((∀ e < 4, ¬whole e) ∧ some' d ∧ ∀ e < d, ¬some' e)) →
    ∃ t, exec .stageEmber s = .next t ∧ t.pkg.stage = 2 ∧ t.pkg.ember = true ∧ t.pkg.emberDie = d ∧
      t.pkg.clusters = s.pkg.passed &&& dieMask d ∧
      ∀ c < 32, t.clusterStep c = if c / 8 = d then 4 else max (s.pkg.islands.getD c {}).ceil (s.pkg.islands.getD c {}).therm) ∧
  (∀ s : State, s.pkg.stage = 1 → s.pkg.passed = 0 → exec .stageEmber s = .next s) ∧
  (∀ (s : State) (d : Fin 4), s.pkg.stage = 2 → s.pkg.stackOk.getLsbD d.val = false → s.pkg.failed.getLsbD d.val = false →
    ∃ t, exec (.stackTrainingFail d) s = .next t ∧
    let n := s.pkg.trainings.getD d.val 0 + 1
    t.pkg.trainings.getD d.val 0 = n ∧ t.pkg.stage = 2 ∧
    (∀ e : Fin 4, t.pkg.failed.getLsbD e.val = (s.pkg.failed.getLsbD e.val || (e == d && decide (3 ≤ n)))) ∧
    (n < 3 ∨ d.val = s.pkg.emberDie → t.pkg.gone = s.pkg.gone ∧ t.pkg.clusters = s.pkg.clusters) ∧
    (3 ≤ n → d.val ≠ s.pkg.emberDie → t.pkg.gone.getLsbD d.val = true ∧ ∀ c < 8, t.pkg.clusters.getLsbD (8 * d.val + c) = false)) ∧
  (∀ s : State, s.pkg.stage = 2 → s.pkg.failed = 0 →
    ∃ t, exec .stageFullCompute s = .next t ∧ t.pkg.stage = 3 ∧ t.pkg.ember = false ∧ t.pkg.stackOk = 0xF ∧ t.pkg.fullDie = 0xF ∧
      t.pkg.reserve = some 0 ∧
      (∀ c < 32, t.pkg.clusters.getLsbD c = (s.pkg.passed.getLsbD c && !(s.pkg.islands.getD c {}).wdrawn)) ∧ (∀ k < 8, (t.link k).state = if (s.link k).state = 0 then 1 else (s.link k).state) ∧
      ∀ c < 8, let i := s.pkg.emberDie * 8 + c
        let x := s.pkg.islands.getD i {}
        (t.pkg.islands.getD i {}).relock = (x.relock || (max x.ceil x.therm != 4))) ∧
  (∀ s : State, s.pkg.stage = 2 → s.pkg.failed = 0xF → exec .stageFullCompute s = .next s) ∧
  (∀ (s : State) (fns : List PciFn), s.pkg.stage = 3 →
    ∃ t, exec (.stageFullService fns) s = .next t ∧ t.pkg.stage = 4 ∧ t.pkg.functions = fns ∧
      ∀ k, 8 ≤ k → k < 17 → (t.link k).state = if (s.link k).state = 0 then 1 else (s.link k).state)

/-- R30, R31, R33, R39 to R42: a crossing of a thermal threshold moves the thermal step by one, down only after 10 ms below the limit, and an island whose step in force changes
relocks until its clock is locked again. A link drops one rate step and retrains, is sped up only at the operator's request and when its
margins pass, comes up after its retrain, and goes down at its lowest step; a retried flit changes nothing.
R299, R37, R38, R41: a cluster that fails its in-field test leaves service; a die with no path left, or whose stack failed training, is
withdrawn with its clusters. -/
def Obligations.IslandsAndLinks : Prop :=
  ((∀ (s : State) (j : Fin 40),
  ∀ x ∈ ([(.thermalRise j, fun n => min 4 (n + 1)), (.thermalFall j, fun n => n - 1)] : List (Instr × (Nat → Nat))),
    (x.1 = .thermalRise j → (s.pkg.islands.getD j.val {}).therm ≤ 4) →
    (x.1 = .thermalFall j → (s.pkg.islands.getD j.val {}).therm ≠ 0 ∧ (s.pkg.islands.getD j.val {}).below + 27000000 ≤ (s.ref 0).toNat) →
    ∃ t, exec x.1 s = .next t ∧
      let a := s.pkg.islands.getD j.val {}
      let b := t.pkg.islands.getD j.val {}
      b.therm = x.2 a.therm ∧ b.ceil = a.ceil ∧
      t.islandStep j.val = (if j.val < 32 ∧ s.pkg.ember = true ∧ j.val / 8 = s.pkg.emberDie then 4 else max b.ceil b.therm) ∧
      b.relock = (a.relock || (t.islandStep j.val != s.islandStep j.val))) ∧
  (∀ (s : State) (j : Fin 40), (s.pkg.islands.getD j.val {}).therm = 0 ∨ (s.ref 0).toNat < (s.pkg.islands.getD j.val {}).below + 27000000 →
    exec (.thermalFall j) s = .next s) ∧
  (∀ (s : State) (j : Fin 40), ∃ t, exec (.clockRelockDone j) s = .next t ∧
    t.pkg.islands.getD j.val {} = { s.pkg.islands.getD j.val {} with relock := false }) ∧
  (∀ (s : State) (k : Fin 17) (m : EyeEstimate) (pass : Bool),
    let l := s.link k.val
    let low := if k.val < 8 then 3 else if k.val < 16 then 4 else 6
    (l.state = 1 → l.rate < low → ∃ t, exec (.linkRateDrop k m) s = .next t ∧
      t.link k.val = { l with rate := l.rate + 1, state := 2, retry := min 255 (l.retry + 1), margins := l.margins.put m.lane.val m.margin.toNat }) ∧
    (l.state = 1 → l.rate ≠ 0 → pass = true → ∃ t, exec (.linkUpreq .operator k pass) s = .next t ∧
      t.link k.val = { l with rate := l.rate - 1, state := 2, retry := min 255 (l.retry + 1) } ∧
      t.pkg.replies = s.pkg.replies ++ [{ who := .operator, status := 0, values := [] }]) ∧
    (l.state ≠ 1 ∨ l.rate = 0 ∨ pass = false → exec (.linkUpreq .operator k pass) s = .next (s.answer .operator 2)) ∧
    (∀ who, who ≠ .operator → exec (.linkUpreq who k pass) s = .next (s.answer who 1)) ∧
    (l.state = 2 → ∃ t, exec (.linkRetrainDone k) s = .next t ∧ t.link k.val = { l with state := 1 }) ∧
    exec (.linkFlitRetry k) s = .next s ∧
    (l.state = 1 ∨ l.state = 2 → l.rate = low → 8 ≤ k.val →
      ∃ t, exec (.linkDown k) s = .next t ∧ t.link k.val = { l with state := 3 }))) ∧
  ((∀ (s : State) (c : Fin 32), s.pkg.testing.contains c.val = true →
    (∃ t, exec (.infieldTestDone c true) s = .next t ∧ t.pkg.tests.contains c.val = false ∧ t.pkg.testing.contains c.val = false ∧ t.pkg.clusters = s.pkg.clusters) ∧
    (∃ t, exec (.infieldTestDone c false) s = .next t ∧ t.pkg.tests.contains c.val = false ∧ (t.pkg.islands.getD c.val {}).wdrawn = true ∧
      t.pkg.clusters.getLsbD c.val = false ∧ ∀ k, k ≠ c.val → t.pkg.clusters.getLsbD k = s.pkg.clusters.getLsbD k)) ∧
  (∀ (s : State) (k : Fin 17), let l := s.link k.val
    l.state = 1 ∨ l.state = 2 → k.val < 8 → l.rate = 3 →
    ∃ t, exec (.linkDown k) s = .next t ∧ (t.link k.val).state = 3 ∧
      ∀ d < 4, ((s.setLink k.val { l with state := 3 }).reached 4).contains d = false → s.pkg.gone.getLsbD d = false →
        t.pkg.gone.getLsbD d = true ∧ ∀ c < 8, t.pkg.clusters.getLsbD (8 * d + c) = false) ∧
  (∀ s : State, s.pkg.stage = 2 → s.pkg.failed ≠ 0xF →
    ∃ t, exec .stageFullCompute s = .next t ∧ t.pkg.stage = 3 ∧
      ∀ d < 4, s.pkg.failed.getLsbD d = true → t.pkg.gone.getLsbD d = true ∧ t.pkg.stackOk.getLsbD d = false ∧
        t.pkg.fullDie.getLsbD d = false ∧ ∀ c < 8, t.pkg.clusters.getLsbD (8 * d + c) = false))

/-! ## Ports (R43 to R47, R105, R111) -/

/-- R43 to R47, R62: a request goes out under a tag that is free, and its response, unless it comes 1 ms late, frees the tag: a store or an
atomic takes effect, a load fills its registers once every block has come, an element of a copy has its block. A request without response
for 1 ms is an uncorrectable error of its issuer. A request from outside is translated in the space bound to its client window: what the
space allows is performed and answered, what the enqueue half of a launch queue's window takes is appended (R101), and a miss or a breach
gets an error response. At the storage port a refused request is answered as
unsupported with a notice of event 1 (its reasons where R62 gives none are the model's choice, log 72). -/
def Obligations.Ports : Prop :=
  (∀ (s : State) (port : Fin 8) (id pa bytes : Nat) (st : Bool), s.pkg.stage ≠ 0 → (s.portReqs port.val).length < 16384 →
    ((s.portReqs port.val).map (·.bytes)).sum < 2097152 → s.nextRequest port.val id = some (pa, bytes, st) →
    ∃ t tag, exec (.rinnorRequestSend port id) s = .next t ∧ tag < 16384 ∧ (∀ r ∈ s.portReqs port.val, r.tag ≠ tag) ∧
      t.portReqs port.val = s.portReqs port.val ++
        [{ tag := tag, bytes := bytes, id := id, isStore := st, pa := pa, sent := (s.ref 0).toNat }]) ∧
  (∀ (s : State) (port : Fin 8) (tag : Nat) (r : PortReqOut), (s.portReqs port.val).find? (fun q => q.tag == tag) = some r →
    (s.ref 0).toNat < r.sent + 2700000 → s.sentBefore port.val r = false →
    (∀ x, s.stores.find r.id = some x → x.atom = none →
      ∃ t, exec (.rinnorResponse port tag) s = .next t ∧ (∀ q ∈ t.portReqs port.val, q.tag ≠ tag) ∧ t.stores.find r.id = none ∧
        ∀ i b, x.data[i]? = some b → t.rdByte (r.pa + i) = b) ∧
    (∀ x op flt n v, s.stores.find r.id = some x → x.atom = some (op, flt, n, v) →
      ∃ t u : State, exec (.rinnorResponse port tag) s = .next t ∧ (∀ q ∈ t.portReqs port.val, q.tag ≠ tag) ∧ t.stores.find r.id = none ∧
        u.mem = s.mem ∧ u.own = s.own ∧ t.mem = (u.rmw Flt.atomF r.pa op flt n v 0).2.mem) ∧
    (∀ f n a, s.stores.find r.id = none → s.fills.find r.id = some f → f.what = .load n [some a] → inRegion 2 a = true → r.pa / 256 = a / 256 →
      s.earlierFill r.id f.tid f.sectors = false → s.poisoned a n = false → f.gone = false →
      ∃ t, exec (.rinnorResponse port tag) s = .next t ∧ (∀ q ∈ t.portReqs port.val, q.tag ≠ tag) ∧ t.fills.find r.id = none) ∧
    (∀ f, s.stores.find r.id = none → s.fills.find r.id = some f → { f with got := insertAsc (r.pa / 256) f.got }.blocks ≠ [] →
      exec (.rinnorResponse port tag) s = .next { s.freeTag port.val tag with
        fills := s.fills.put r.id { f with got := insertAsc (r.pa / 256) f.got } }) ∧
    (∀ c, s.stores.find r.id = none → s.fills.find r.id = none → s.colls.find r.id = some c →
      ∃ t, exec (.rinnorResponse port tag) s = .next t ∧ (∀ q ∈ t.portReqs port.val, q.tag ≠ tag) ∧
        t.colls.find r.id = some { c with got := insertAsc (r.pa / 256) c.got })) ∧
  (∀ (s : State) (port : Fin 8) (tag : Nat) (r : PortReqOut), (s.portReqs port.val).find? (fun q => q.tag == tag) = some r →
    r.sent + 2700000 ≤ (s.ref 0).toNat →
    exec (.rinnorResponse port tag) s = .next s ∧
    (∀ x, s.stores.find r.id = some x → exec (.rinnorTimeout port tag) s = .next (((s.freeTag port.val tag).endStore r.id).consumeAt x.tid)) ∧
    (∀ f, s.stores.find r.id = none → s.fills.find r.id = some f →
      exec (.rinnorTimeout port tag) s = .next ({ s.freeTag port.val tag with fills := s.fills.erase r.id }.consumeAt f.tid)) ∧
    (∀ c, s.stores.find r.id = none → s.fills.find r.id = none → s.colls.find r.id = some c →
      ∃ t, exec (.rinnorTimeout port tag) s = .next t ∧ (∀ q ∈ t.portReqs port.val, q.tag ≠ tag) ∧
        t.colls.find r.id = some { c with lost := insertAsc (r.pa / 256) c.lost })) ∧
  (∀ (s : State) (window space pa : Nat) (port : Nat) (r : PortReq), s.pkg.stage ≠ 0 → s.pkg.windows.find window = some (space, port) →
    rinnorOk r = true →
    let ok := fun (b : List Byte) => s.pkg.portOut ++ [{ port := port, from' := window, error := false, bytes := b }]
    (∀ h u, s.inbound space r = .window h → s.append space h (fit r.len r.data) = some u →
      exec (.hostRequest window r) s = .next (u.portAnswer port window false [])) ∧
    (s.inbound space r = .wait → exec (.hostRequest window r) s = .next s) ∧
    (s.inbound space r = .at' pa →
      (r.op = .load → s.poisoned pa r.len = false → ∃ t, exec (.hostRequest window r) s = .next t ∧ t.mem = s.mem ∧
        t.pkg.portOut = ok (s.load pa r.len)) ∧
      (r.op = .store → ∃ t, exec (.hostRequest window r) s = .next t ∧ (∀ i < r.len, t.rdByte (pa + i) = r.data.getD i 0) ∧
        t.pkg.portOut = ok []) ∧
      (r.op ≠ .load → r.op ≠ .store → s.poisoned pa 8 = false →
        let old := leNat (s.load pa 8)
        let x := fieldLE r.data 0 8
        ∃ t b, exec (.hostRequest window r) s = .next t ∧ t.pkg.portOut = ok b ∧ leNat b = old ∧
          (r.op = .add → leNat (t.rdBytes pa 8) = (old + x) % 2 ^ 64) ∧ (r.op = .swap → leNat (t.rdBytes pa 8) = x) ∧
          (r.op = .cas → (old = x → leNat (t.rdBytes pa 8) = fieldLE r.data 8 8) ∧ (old ≠ x → t.mem = s.mem))))) ∧
  (∀ (s : State) (window space port : Nat) (r : PortReq), s.pkg.stage ≠ 0 →
    (s.pkg.windows.find window = none → exec (.hostRequest window r) s = .next (s.portAnswer 0 window true [])) ∧
    (s.pkg.windows.find window = some (space, port) → (rinnorOk r = false ∨ ∃ n, s.inbound space r = .error n) →
      exec (.hostRequest window r) s = .next (s.portAnswer port window true []))) ∧
  (∀ (s : State) (fn : BitVec 16) (p pa : Nat) (r : PortReq), (s.link 16).state = 1 → (s.link 16).l1 = false → s.fnSpace fn = some p →
    0 < r.len → r.va % 4096 + r.len ≤ 4096 → s.inbound p r = .at' pa →
    (r.op = .store → r.len ≤ 512 → ∃ t, exec (.storageInboundRequest fn r) s = .next t ∧ (∀ i < r.len, t.rdByte (pa + i) = r.data.getD i 0) ∧
      t.pkg.portOut = s.pkg.portOut ++ [{ port := 8, from' := fn.toNat, error := false, bytes := [] }]) ∧
    (r.op = .load → s.poisoned pa r.len = false → ∃ t, exec (.storageInboundRequest fn r) s = .next t ∧ t.mem = s.mem ∧
      t.pkg.portOut = s.pkg.portOut ++ [{ port := 8, from' := fn.toNat, error := false, bytes := s.load pa r.len }])) ∧
  (∀ (s : State) (fn : BitVec 16) (r : PortReq), (s.link 16).state = 1 → (s.link 16).l1 = false → s.pkg.notices.length < 4096 →
    (∀ n ∈ s.pkg.notices, n.event ≠ 1) →
    let refused := fun (part reason : Nat) => ∃ t, ∃ n : Notice, exec (.storageInboundRequest fn r) s = .next t ∧
      t.pkg.notices = s.pkg.notices ++ [n] ∧ n.event = 1 ∧ n.part = part ∧ n.detail = fn.toNat + 65536 * reason ∧
      t.pkg.portOut = s.pkg.portOut ++ [{ port := 8, from' := fn.toNat, error := true, bytes := [] }]
    (s.fnSpace fn = none → refused 0xFF 0) ∧
    (∀ p n, s.fnSpace fn = some p → r.op = .load ∨ r.op = .store ∧ r.len ≤ 512 → 0 < r.len → r.va % 4096 + r.len ≤ 4096 →
      s.inbound p r = .error n → refused p n))

/-! ## Hypervisor calls of a session and of the call ring (R49, R75, R80, R86 to R92, R99 to R104, R110, R173 to R177, R189) -/

namespace Sys2Proof.Spec

open Machine

/-- A call of number `no` with operands `args` is made in space `p`, which is neither sealed nor frozen: by a session of its owner or the
auditor, or by a call record of its ring that a service has taken and not answered. -/
def asked (s : State) (src : CallSrc) (no : Nat) (args : List Nat) (p : Nat) : Prop :=
  s.busyPart p = false ∧
  match src with
  | .session who => spaceFor who = some p
  | .call space tag => space = p ∧ ∃ c, (s.part p).calls.find tag = some c ∧ c.taken = true ∧ c.reply = none ∧ c.callno = no ∧
      ∀ (i : Nat) (a : Nat), args[i]? = some a → (c.args.getD i 0).toNat = a
/-- `t` is `u` with the answer of a call: a status and the results after it. -/
def answered (src : CallSrc) (u t : State) (status : Nat) (res : List Nat) : Prop :=
  t = match src with
    | .session who => u.answer who status (res.map (BitVec.ofNat 64))
    | .call space tag => u.reply space tag ((status :: res).map (BitVec.ofNat 64))
/-- The pages of a range that an address and a length name. -/
def pages (va len : Nat) : List Nat := (List.range (len / 65536)).map (va / 65536 + ·)

end Sys2Proof.Spec

/-- R49, R76, R77, R90, R92, R173, R175, R177, R190: ALLOC gives a run of free frames, aligned, zero-filled, and owned by the space, and waits
while the limits allow them and there is no run; FREE gives
frames that nothing maps back; SALLOC grants scratchpad frames of a slice, SFREE ends the grant. A call that would exceed a limit is
answered NOFRAMES; the operator's sessions are refused, a sealed or frozen space is BUSY. -/
def Obligations.FrameCalls : Prop :=
  (∀ (s : State) (src : CallSrc) (p count align fix : Nat), Spec.asked s src 0x8001 [count, align, fix] p → count ≠ 0 → align ≤ 18 →
    (s.mayTake p count (fix != 0) = true → s.freeRun count align ≠ none →
      ∃ t u f, exec (.alloc src count align fix) s = .next t ∧ Spec.answered src u t 0 [f] ∧ f % 2 ^ align = 0 ∧ f + count ≤ 12582912 ∧
        ∀ i < count, (s.frame (f + i)).owner = 127 ∧ (u.frame (f + i)).owner = p ∧ (u.frame (f + i)).fix = (fix != 0) ∧
          ∀ k < 65536, u.rdByte ((f + i) * 65536 + k) = 0) ∧
    (s.mayTake p count (fix != 0) = true → s.freeRun count align = none →
      exec (.alloc src count align fix) s = .next (s.wantFrames p count align)) ∧
    (s.mayTake p count (fix != 0) = false →
      ∃ t, exec (.alloc src count align fix) s = .next t ∧ Spec.answered src s t 3 [])) ∧
  (∀ (s : State) (src : CallSrc) (p first count : Nat), Spec.asked s src 0x8002 [first, count] p → first + count ≤ 12582912 →
    (∀ i < count, (s.frame (first + i)).owner = p ∧ (s.frame (first + i)).maps = 0 ∧ s.saveFrame (first + i) = false ∧
      s.genNeeds p (first + i) = false ∧ s.reserved (first + i) = false) →
    ∃ t u, exec (.freeCall src first count) s = .next t ∧ Spec.answered src u t 0 [] ∧
      (∀ i < count, u.frame (first + i) = {}) ∧ (∀ k, k < first ∨ first + count ≤ k → u.frame k = s.frame k) ∧ u.mem = s.mem) ∧
  (∀ (s : State) (src : CallSrc) (p die core count : Nat), Spec.asked s src 0x800E [die, core, count] p → die < 4 → core < 64 →
    1 ≤ count → count ≤ 128 →
    (s.scrHeld p + count ≤ (s.part p).scrcap → s.freeScr (die * 64 + core) count ≠ none →
      ∃ t u f, exec (.salloc src die core count) s = .next t ∧ Spec.answered src u t 0 [0x00F0000000000000 + f * 65536] ∧
        (die * 64 + core) * 128 ≤ f ∧ f + count ≤ (die * 64 + core) * 128 + 128 ∧
        ∀ i < count, (s.frame (12582912 + f + i)).owner = 127 ∧ (u.frame (12582912 + f + i)).owner = p ∧ u.grants.find (12582912 + f + i) = some p) ∧
    ((s.part p).scrcap < s.scrHeld p + count →
      ∃ t, exec (.salloc src die core count) s = .next t ∧ Spec.answered src s t 3 [])) ∧
  (∀ (s : State) (src : CallSrc) (p f count : Nat), Spec.asked s src 0x8010 [0x00F0000000000000 + f * 65536, count] p → f < 32768 →
    (∀ i < count, s.grants.find (12582912 + f + i) = some p) → s.inFlight p (0x00F000000000 + f) count = false →
    (∀ e ∈ s.queues, ∀ x ∈ e.2.spans, isFlat x.1 = true →
      x.1 + x.2 ≤ 0x00F0000000000000 + f * 65536 ∨ 0x00F0000000000000 + (f + count) * 65536 ≤ x.1) →
    ∃ t u, exec (.sfree src (0x00F0000000000000 + f * 65536) count) s = .next t ∧ Spec.answered src u t 0 [] ∧
      ∀ i < count, u.grants.find (12582912 + f + i) = none) ∧
  (∀ (s : State) (a b c : Nat), ∀ x ∈ [Instr.alloc (.session .operator) a b c, .freeCall (.session .operator) a b,
      .salloc (.session .operator) a b c, .sfree (.session .operator) a b], exec x s = .next (s.answer .operator 1)) ∧
  (∀ (s : State) (p a b c : Nat), s.busyPart p = true → ∀ x ∈ [Instr.alloc (.session (.owner p)) a b c, .freeCall (.session (.owner p)) a b,
      .salloc (.session (.owner p)) a b c, .sfree (.session (.owner p)) a b], exec x s = .next (s.answer (.owner p) 4))

/-- R85 to R88, R90, R91, R99, R189: MAP installs a leaf over frames of the space or over host memory; UNMAP leaves the range at STATE 0; PROTECT
changes RD, W and XE of what the range holds; LAZY leaves it at STATE 1 with its attributes; QUERY answers the leaf entry; RESTORE brings
LOST pages back to STATE 2 from a drained generation; GMAP maps its pages read-only; both answer GONE when it is not drained or its store
cannot be reached; GFREE ends one. UNMAP waits while an access that has translated into the range is in flight. That it waits too for a page
at the source of a migration, that a page without a copy maps as an empty one, and which frames MAP refuses (log 67), and what QUERY shows
of an absent entry (log 68), are the model's choices. -/
def Obligations.PageCalls : Prop :=
  (∀ (s : State) (src : CallSrc) (p va frame size : Nat) (w : W64), Spec.asked s src 0x0003 [va, frame, size, w.toNat] p →
    let n := sizePages size
    let kind := w.toNat / 16 % 8
    size ≤ 3 → va % (n * 65536) = 0 → va + n * 65536 ≤ 0x00F0000000000000 → frame % n = 0 → w &&& ~~~(0x180000000000007E : W64) = 0 →
    (kind = 0 ∨ kind = 2) → reachFits (w.toNat / 2 ^ 59 % 4) kind = true → inRegion kind (frame * 65536) = true →
    inRegion kind ((frame + n) * 65536 - 1) = true →
    (kind = 0 → (∀ i < n, (s.frame (frame + i)).owner = p ∧ (s.frame (frame + i)).maps < 16382 ∧
      s.asideFrame p (frame + i) = false ∧ s.saveFrame (frame + i) = false) ∧
      ((∀ i < n, (s.frame (frame + i)).fix = true) ∨ ∀ i < n, (s.frame (frame + i)).fix = false)) →
    s.inFlight p (va / 65536) n = false → s.pullFirst p (va / 65536) n = false →
    ∃ t u e, exec (.mapCall src va frame size w) s = .next t ∧ Spec.answered src u t 0 [] ∧
      u.pages.find (pageKey p (va / 65536)) = some e ∧ e.valid = true ∧ e.size = size ∧ e.owner = p ∧ e.addr = frame * 65536 ∧ e.kind = kind ∧
      e.rd = w.getLsbD 1 ∧ e.w = w.getLsbD 2 ∧ e.xe = w.getLsbD 3 ∧ e.reach = w.toNat / 2 ^ 59 % 4 ∧
      ∀ q ∈ Spec.pages va (n * 65536), u.pagePending p q = false) ∧
  (∀ (s : State) (src : CallSrc) (p va len : Nat), Spec.asked s src 0x0004 [va, len] p → va % 65536 = 0 → len % 65536 = 0 →
    va + len ≤ 0x00F0000000000000 → s.inFlight p (va / 65536) (len / 65536) = false → s.pullFirst p (va / 65536) (len / 65536) = false →
    ∃ t u, exec (.unmap src va len) s = .next t ∧ Spec.answered src u t 0 [] ∧
      ∀ q ∈ Spec.pages va len, u.pages.find (pageKey p q) = none ∧ u.pagePending p q = false) ∧
  (∀ (s : State) (src : CallSrc) (p va len rd w xe : Nat), Spec.asked s src 0x0005 [va, len, rd, w, xe] p → va % 65536 = 0 → len % 65536 = 0 →
    va + len ≤ 2 ^ 56 → rd ≤ 1 → w ≤ 1 → xe ≤ 1 →
    (s.leavesOver p (va / 65536) (len / 65536)).any (fun e => e.2.kind == 3 || e.2.kind == 4) = false →
    s.inFlight p (va / 65536) (len / 65536) = false →
    ∃ t u, exec (.protect src va len rd w xe) s = .next t ∧ Spec.answered src u t 0 [] ∧
      ∀ q ∈ Spec.pages va len, ∀ e, u.pages.find (pageKey p q) = some e → e.valid = true ∨ (e.state ≠ 0 ∧ e.state ≠ 4) →
        e.rd = (rd == 1) ∧ e.w = (w == 1) ∧ e.xe = (xe == 1)) ∧
  (∀ (s : State) (src : CallSrc) (p va len : Nat) (w : W64), Spec.asked s src 0x8006 [va, len, w.toNat] p → va % 65536 = 0 → len % 65536 = 0 →
    va + len ≤ 0x00F0000000000000 → w &&& ~~~(0x180000000000007E : W64) = 0 → w.toNat / 16 % 8 = 0 → reachFits (w.toNat / 2 ^ 59 % 4) 0 = true →
    s.inFlight p (va / 65536) (len / 65536) = false → s.pullFirst p (va / 65536) (len / 65536) = false →
    ∃ t u, exec (.lazy src va len w) s = .next t ∧ Spec.answered src u t 0 [] ∧
      ∀ q ∈ Spec.pages va len, ∃ e, u.pages.find (pageKey p q) = some e ∧
        e = { valid := false, state := 1, owner := p, reach := w.toNat / 2 ^ 59 % 4, rd := w.getLsbD 1, w := w.getLsbD 2, xe := w.getLsbD 3 }) ∧
  (∀ (s : State) (p va : Nat), s.busyPart p = false → va % 65536 = 0 → va < 2 ^ 56 →
    exec (.query (.session (.owner p)) p va) s = .next (s.answer (.owner p) 0 [BitVec.ofNat 64 (s.leafWord p va).word]) ∧
    (∀ q, q ≠ p → exec (.query (.session (.owner q)) p va) s = .next (s.answer (.owner q) 1)) ∧
    (p < 64 → exec (.query (.session .operator) p va) s =
      .next (s.answer .operator 1 [BitVec.ofNat 64 ((s.leafWord p va).masked true)]))) ∧
  (∀ (s : State) (src : CallSrc) (p gen va len slot q : Nat) (g : Gen) (e : PageEnt), Spec.asked s src 0x8009 [gen, va, len] p →
    va % 65536 = 0 → len % 65536 = 0 → va + len ≤ 0x00F0000000000000 → (s.part p).gens.find gen = some g → g.state = 4 → s.pkg.tierUp = true →
    q ∈ Spec.pages va len → s.pages.find (pageKey p q) = some e → e.valid = false → e.state = 4 → g.drained.find q = some slot →
    ∃ t u, exec (.restore src gen va len) s = .next t ∧ Spec.answered src u t 0 [] ∧
      u.pages.find (pageKey p q) = some { e with state := 2, addr := slot }) ∧
  (∀ (s : State) (src : CallSrc) (p serial : Nat) (g : Gen), Spec.asked s src 0x8011 [serial] p → (s.part p).gens.find serial = some g →
    (g.state ∈ [2, 3, 4, 6] → ∃ t u, exec (.gfree src serial) s = .next t ∧ Spec.answered src u t 0 [] ∧ (u.part p).gens.find serial = none) ∧
    (g.state = 1 ∨ g.state = 5 → ∃ t, exec (.gfree src serial) s = .next t ∧ Spec.answered src s t 2 [])) ∧
  (∀ (s : State) (src : CallSrc) (p serial sva dva len : Nat) (g : Gen), Spec.asked s src 0x8012 [serial, sva, dva, len] p →
    sva % 65536 = 0 → dva % 65536 = 0 → len % 65536 = 0 → sva + len ≤ 0x00F0000000000000 → dva + len ≤ 0x00F0000000000000 →
    (s.part p).gens.find serial = some g → g.state = 4 → s.pkg.tierUp = true →
    (∀ q ∈ Spec.pages dva len, ∀ x, s.walk p q = some x → x.2.valid = false ∧ x.2.state = 0) →
    ∃ t u, exec (.gmap src serial sva dva len) s = .next t ∧ Spec.answered src u t 0 [] ∧
      ∀ i < len / 65536,
        (∀ slot, g.drained.find (sva / 65536 + i) = some slot →
          u.pages.find (pageKey p (dva / 65536 + i)) = some { valid := false, state := 2, owner := p, addr := slot, rd := true }) ∧
        (g.drained.find (sva / 65536 + i) = none → ∃ slot, u.slots.find slot = some { bytes := [], poison := [] } ∧
          u.pages.find (pageKey p (dva / 65536 + i)) = some { valid := false, state := 2, owner := p, addr := slot, rd := true })) ∧
  (∀ (s : State) (src : CallSrc) (p serial va dva len : Nat), va % 65536 = 0 → dva % 65536 = 0 → len % 65536 = 0 →
    va + len ≤ 0x00F0000000000000 → dva + len ≤ 0x00F0000000000000 →
    (s.pkg.tierUp = false ∨ ∀ g, (s.part p).gens.find serial = some g → g.state ≠ 4) →
    (Spec.asked s src 0x8009 [serial, va, len] p → ∃ t, exec (.restore src serial va len) s = .next t ∧ Spec.answered src s t 5 []) ∧
    (Spec.asked s src 0x8012 [serial, va, dva, len] p → ∃ t, exec (.gmap src serial va dva len) s = .next t ∧ Spec.answered src s t 5 [])) ∧
  (∀ (s : State) (src : CallSrc) (p va len : Nat), Spec.asked s src 0x0004 [va, len] p → va % 65536 = 0 → len % 65536 = 0 →
    va + len ≤ 0x00F0000000000000 → s.inFlight p (va / 65536) (len / 65536) = true ∨ s.pullFirst p (va / 65536) (len / 65536) = true →
    exec (.unmap src va len) s = .next s)

/-- R78, R100, R101, R104, R110, R112: QBIND and QOPEN bind the queue that a control word describes to the lowest free HANDLE and map its window;
NVBIND binds a queue pair of a function; QCLOSE, NVFREE and, after 100 ms, NVFREE_ABORT unbind. A kind of which a space holds one is not
bound twice, unless the first can no longer be used (R38). The statuses where no HANDLE is free or the word names no queue, the place of a
completion queue, and that NVFREE waits for no packet are the model's choices (log 69).
R102, R105, R111: a closed packet that waits is appended when its queue has room; the network port takes the oldest entry of a transmit
queue, and sets DROP when the destination does not take it; an entry from the permitted source is appended to a receive queue with its
source in front. -/
def Obligations.QueueCalls : Prop :=
  ((∀ (s : State) (src : CallSrc) (p kind cw h : Nat) (q : Queue), Spec.asked s src 0x8008 [kind, cw] p →
    let s' := s.dropUnsound p kind cw
    s'.describe p cw [kind] = some q → s'.freeHandle p = some h →
    ((kind = 1 ∨ (2 ≤ kind ∧ kind ≤ 4 ∧ s'.kindQueue p kind = none)) →
      ∃ t u, exec (.qbind src kind cw) s = .next t ∧ Spec.answered src u t 0 [h] ∧ (kind ≠ 3 → u.queue p h = some q) ∧
        (u.queue p h).isSome = true ∧ (∀ j < h, (s'.queue p j).isSome = true) ∧ (s'.queue p h) = none ∧
        ∃ e, u.pages.find (pageKey p q.window) = some e ∧ e.valid = true ∧ e.kind = 4 ∧ e.owner = p) ∧
    (2 ≤ kind ∧ kind ≤ 4 ∧ s'.kindQueue p kind ≠ none →
      ∃ t, exec (.qbind src kind cw) s = .next t ∧ Spec.answered src s t 2 [])) ∧
  (∀ (s : State) (src : CallSrc) (p cw dev part h : Nat) (q : Queue), Spec.asked s src 0x800A [cw, dev, part] p →
    let s' := s.dropUnsound p 0 cw
    s'.describe p cw [0, 5] = some q → s'.freeHandle p = some h →
    ∃ t u, exec (.qopen src cw dev part) s = .next t ∧ Spec.answered src u t 0 [h] ∧ u.queue p h = some { q with srcDev := dev, srcPart := part } ∧
      ∃ e, u.pages.find (pageKey p q.window) = some e ∧ e.valid = true ∧ e.kind = 4 ∧ e.owner = p) ∧
  (∀ (s : State) (src : CallSrc) (p cw h : Nat) (q : Queue), Spec.asked s src 0x800B [cw] p → s.queueAt p cw = some (h, q) → q.kind ≠ 6 →
    (s.queueOpen p h q = false → ∃ t u, exec (.qclose src cw) s = .next t ∧ Spec.answered src u t 0 [] ∧ u.queue p h = none ∧
      u.pages.find (pageKey p q.window) = none ∧ u.mem = s.mem) ∧
    (s.queueOpen p h q = true → exec (.qclose src cw) s = .next s)) ∧
  (∀ (s : State) (src : CallSrc) (p cw : Nat), s.queueAt p cw = none →
    (Spec.asked s src 0x800B [cw] p → ∃ t, exec (.qclose src cw) s = .next t ∧ Spec.answered src s t 2 []) ∧
    (Spec.asked s src 0x800D [cw] p → ∃ t, exec (.nvfree src cw) s = .next t ∧ Spec.answered src s t 2 [])) ∧
  (∀ (s : State) (src : CallSrc) (p cw cq cqLog bell h y : Nat) (fn : BitVec 16) (f : PciFn) (q : Queue),
    Spec.asked s src 0x800C [fn.toNat, cw, cq, cqLog, bell] p → s.storageDown = false → s.nvFunction fn = some f → f.space = p →
    s.describe p cw [6] = some q → s.freeHandle p = some h → s.nvFree f = some y → q.logDepth = cqLog → cq % 65536 = 0 → bell % 65536 = 0 →
    cw % 65536 = 0 → s.fixedRange p cq (2 ^ cqLog * 16) = true → s.freePage p (bell / 65536) = true → bell / 65536 ≠ q.window →
    ∃ t u, exec (.nvbind src fn cw cq cqLog bell) s = .next t ∧ Spec.answered src u t 0 [y] ∧ (u.link 16).l1 = false ∧
      u.queue p h = some { q with fn := fn, nvq := y, bell := bell / 65536, cq := cq, cqLog := cqLog } ∧
      u.pages.find (pageKey p (bell / 65536)) = some { valid := true, owner := p, addr := f.bar, kind := 3, w := true }) ∧
  (∀ (s : State) (src : CallSrc) (p cw h : Nat) (q x : Queue), Spec.asked s src 0x800D [cw] p → s.queueAt p cw = some (h, q) → q.kind = 6 →
    s.storageDown = false → s.freshQueue p h = some x →
    (s.nvFunction q.fn = none ∨ x.count = 0 → ∃ t u, exec (.nvfree src cw) s = .next t ∧ Spec.answered src u t 0 [] ∧ u.queue p h = none ∧
      u.pages.find (pageKey p q.window) = none ∧ u.pages.find (pageKey p q.bell) = none) ∧
    (s.nvFunction q.fn ≠ none → x.count ≠ 0 → q.closing = none → ∃ t, exec (.nvfree src cw) s = .next t ∧
      t.queue p h = some { q with closing := some (src, (s.ref 0).toNat) })) ∧
  (∀ (s : State) (src : CallSrc) (p cw h at' : Nat) (q : Queue), s.queueAt p cw = some (h, q) → q.closing = some (src, at') →
    Spec.asked s src 0x800D [cw] p → at' + 270000000 ≤ (s.ref 0).toNat →
    ∃ t u, exec (.nvfreeAbort p cw) s = .next t ∧ Spec.answered src u t 0 [] ∧ u.queue p h = none ∧
      u.pages.find (pageKey p q.bell) = none)) ∧
  ((∀ (s u : State) (p h tid : Nat) (q : Queue) (x : Packet) (rest : List (Nat × Packet)), s.queue p h = some q → q.waiting = (tid, x) :: rest →
    s.queueSound p q = true → (s.setQueue p h { q with waiting := rest }).append p h x.flits.flatten = some u →
    ∃ t y, exec (.packetAppend p h) s = .next t ∧ t.queue p h = some y ∧ y.waiting = rest ∧ y.tail = (q.tail + 1) % 2 ^ 32 ∧ t.mem = u.mem) ∧
  (∀ (s : State) (p h : Nat) (q : Queue) (ok : Bool), s.queue p h = some q → q.kind = 5 → q.count ≠ 0 → s.netUp = true →
    s.served .network = true → s.queueSound p q = true →
    let e := s.headEntry p q
    let good := ok && (1 ≤ fieldLE e 4 1 && fieldLE e 4 1 ≤ 8 && fieldLE e 5 3 == 0)
    ∃ t y, exec (.networkSend p h ok) s = .next t ∧ t.queue p h = some y ∧ y.head = (q.head + 1) % 2 ^ 32 ∧ y.tail = q.tail ∧
      y.drop = (q.drop || !good) ∧ t.pkg.netOut = s.pkg.netOut ++ (if good then [e] else [])) ∧
  (∀ (s : State) (p h dev part : Nat) (q : Queue) (e : List Byte), s.queue p h = some q → q.kind = 0 → q.netrx = true → q.srcDev = dev →
    q.srcPart = part → 1 ≤ fieldLE e 4 1 → fieldLE e 4 1 ≤ 8 → fieldLE e 5 3 = 0 →
    s.netUp = true → s.served .network = true → Spec.room s p q = true →
    ∃ t y, exec (.networkReceive h dev part p e) s = .next t ∧ t.queue p h = some y ∧ y.tail = (q.tail + 1) % 2 ^ 32 ∧
      s.append p h (toLE 2 dev ++ toLE 2 part ++ (e.drop 4).take (32 * fieldLE e 4 1 - 4)) = some t) ∧
  (∀ (s : State) (p h dev part : Nat) (q : Queue) (e : List Byte), s.queue p h = some q → q.srcDev ≠ dev ∨ q.srcPart ≠ part →
    exec (.networkReceive h dev part p e) s = .next s))

/-! ## Paging, generations and partitions (R57, R63 to R66, R76, R87 to R98, R181 to R190, R296) -/

/-- R57, R87, R92, R93, R96, R185, R296: a pending page resolves REFUSED to STATE 0, LOST to STATE 4, and MAPPED to a 64 KiB leaf on a free frame, zero-filled or
with its copy of the lower tier, for which it waits; while a frame request waits, an evicted frame is free with its content in the lower tier, sealed anew unless a valid copy stands there; a stale frame that is scrubbed reads zero; a
sector that scrubbing finds bad is poisoned; copy-aside gives a frame with the content to every generation that shares it.
R62, R181, R186: the oldest closed generation drains; when its drain is done it is drained, holds no number and no aside copy, and every
page that it had aside or shares is in the lower tier, once none of them is still to be pulled; a drain that fails is a failed generation with a notice of event 3 until a retry goes through. -/
def Obligations.Paging : Prop :=
  ((∀ (s : State) (p q b : Nat) (e : PageEnt), s.walk p q = some (b, e) → e.valid = false → e.state ∈ [1, 2, 3] →
    (∃ t, exec (.pageResolve p q .refused) s = .next t ∧ t.pages.find (pageKey p b) = some { e with state := 0 } ∧
      t.pagePending p q = false) ∧
    (∃ t, exec (.pageResolve p q .lost) s = .next t ∧ t.pages.find (pageKey p b) = some { e with state := 4 } ∧
      t.pagePending p q = false) ∧
    (e.state ≠ 3 → (e.state = 2 → s.tierServed = true) → (s.mayTake p 1 false = false ∨ s.freeRun 1 0 = none) →
      exec (.pageResolve p q .mapped) s = .next (s.wantFrames p 1 0)) ∧
    (e.state ≠ 3 → (e.state = 2 → s.tierServed = true) → s.mayTake p 1 false = true → s.freeRun 1 0 ≠ none →
      let img := s.slots.getD e.addr { bytes := [], poison := [] }
      ∃ t f, exec (.pageResolve p q .mapped) s = .next t ∧ f < 12582912 ∧ (s.frame f).owner = 127 ∧
        t.pages.find (pageKey p b) = some { e with valid := true, size := 0, state := 0, fix := false, addr := f * 65536 } ∧
        (t.frame f).owner = p ∧ (t.frame f).fix = false ∧ (t.frame f).maps = 1 ∧ t.pagePending p q = false ∧
        (e.state = 1 → ∀ k < 65536, t.rdByte (f * 65536 + k) = 0) ∧
        (e.state = 2 → img.bytes.sorted = true → ∀ k < 65536, t.rdByte (f * 65536 + k) = img.bytes.getD k 0))) ∧
  (∀ (s s' : State) (q n align : Nat), (s.part q).frameWait = some (n, align) → (s.freeRun n align = none ∨ s.mayTake q n false = false) →
    (State.hand (3 * dramFrames + 1) s q 0 (n != 1) = (none, s') → exec (.victimEvict q) s = .next s') ∧
    (∀ f, State.hand (3 * dramFrames + 1) s q 0 (n != 1) = (some f, s') → (s'.frame f).owner ≠ 127 → s'.busy f = false →
      (s'.sealOf f = none → s.tierServed = true) → s.reserved f = false →
      (s.frame f).fix = false ∧ (s.frame f).owner ≤ 63 ∧
      ∃ t, exec (.victimEvict q) s = .next t ∧ t.frame f = {} ∧ t.mem = s.mem ∧
        (s'.sealOf f = none → t.slots.find s.nextSlot = some (s.imageOf (frameAddr f)) ∧ t.nextSlot = s.nextSlot + 1) ∧
        ((s'.sealOf f).isSome = true → t.slots = s.slots ∧ t.nextSlot = s.nextSlot))) ∧
  (∀ (s : State) (q : Nat), (s.part q).frameWait = none → exec (.victimEvict q) s = .next s) ∧
  (∀ (s : State) (f : Nat), s.stale f = true → ∃ t, exec (.epochScrub f) s = .next t ∧ t.stale f = false ∧
    (t.frame f).owner = (s.frame f).owner ∧ ∀ k < 65536, t.rdByte (frameAddr f + k) = 0) ∧
  (∀ (s : State) (k : Nat), ∃ t, exec (.sectorScrub k) s = .next t ∧ t.poison.contains k = true ∧ t.mem = s.mem) ∧
  (∀ (s : State) (p q f : Nat), s.pageFrame p q = some f → s.frameShared p f = true →
    (s.mayTake p 1 false = true → s.freeRun 1 0 ≠ none →
      ∃ t a, exec (.copyAside p q) s = .next t ∧ (s.frame a).owner = 127 ∧ (t.frame a).owner = p ∧
        ∀ k g, (s.part p).gens.find k = some g → ∀ y ∈ s.genShares p f g,
          ∃ x, (t.part p).gens.find k = some x ∧ x.asides.find y = some a ∧ x.shared.contains y = false) ∧
    ((s.mayTake p 1 false = false ∨ s.freeRun 1 0 = none) → exec (.copyAside p q) s = .next (s.wantFrames p 1 0)))) ∧
  (∀ (s : State) (p k : Nat) (g : Gen), (s.part p).gens.find k = some g →
    let room := s.pkg.notices.length < 4096 ∧ ∀ n ∈ s.pkg.notices, n.event ≠ 3
    let told := fun (t : State) => ∃ n : Notice, t.pkg.notices = s.pkg.notices ++ [n] ∧ n.event = 3 ∧ n.part = p ∧ n.detail = k % 2 ^ 32
    (g.state = 2 → s.served .drain = true → (∀ e ∈ (s.part p).gens, e.1 < k → e.2.state ≠ 3) →
      ∃ t, exec (.drainStart p k) s = .next t ∧ (t.part p).gens.find k = some { g with state := 3 }) ∧
    (g.state = 2 → (∃ e ∈ (s.part p).gens, e.1 < k ∧ e.2.state = 3) → exec (.drainStart p k) s = .next s) ∧
    (g.state = 3 → s.tierServed = true → s.drainPulls p g = false →
      ∃ t x, exec (.drainDone p k) s = .next t ∧ (t.part p).gens.find k = some x ∧ x.state = 4 ∧ x.num = 0 ∧ x.asides = [] ∧
      x.held = [] ∧ x.shared = [] ∧ (∀ e ∈ g.asides ++ g.held, (x.drained.find e.1).isSome = true) ∧
      ∀ q ∈ g.shared, ∀ b e, s.walk p q = some (b, e) → e.valid = true ∨ e.state = 1 ∨ e.state = 2 → (x.drained.find q).isSome = true) ∧
    (g.state = 3 → s.drainPulls p g = true → exec (.drainDone p k) s = .next s) ∧
    (g.state = 3 → room → ∃ t, exec (.drainFail p k) s = .next t ∧ (t.part p).gens.find k = some { g with state := 6 } ∧ told t) ∧
    (g.state = 6 → ∃ t, exec (.drainRetry p k true) s = .next t ∧ (t.part p).gens.find k = some { g with state := 3 }) ∧
    (g.state = 6 → room → ∃ t, exec (.drainRetry p k false) s = .next t ∧ (t.part p).gens.find k = some g ∧ told t))

/-- R49, R57, R63, R64, R76, R181, R301: a partition is created at epoch 0 with generation 0 and counts at zero. RESET leaves none of its groups
and copies, fresh keys under the next epoch and the next reset count, no call outstanding and no session of its owner; a key is known by the number of its draw (log 7); one that finds a reset under way joins it. -/
def Obligations.CreationAndReset : Prop :=
  (∀ (s : State) (p : Nat), p < 64 → (s.part p).live = false → s.pkg.stage ≠ 0 →
    ∃ t, exec (.partitionCreate p) s = .next t ∧ (t.part p).live = true ∧ (t.part p).epoch = 0 ∧ (t.part p).resets = 0 ∧
      (t.part p).launchSeq = 0 ∧ (t.part p).gens = [(0, { num := 0, state := 1 })] ∧ (t.part p).migpol = 0 ∧
      (t.part p).key = s.pkg.draws ∧ (t.part p).bond = s.pkg.draws + 1 ∧ t.pkg.draws = s.pkg.draws + 2 ∧ (∀ q, q ≠ p → t.part q = s.part q) ∧
      ∀ bank i, i < 2 ^ 20 → t.ctrs.getD (ctrNo bank p i) 0 = 0) ∧
  (∀ (s : State) (p : Nat), p < 64 → (s.part p).live = true → (s.part p).sealed = false → (s.part p).migrating = 0 → (s.part p).resetters = 0 →
    (s.sealReset p).epochConflict p = false →
    ∃ t, exec (.resetPart .operator p) s = .next t ∧ (t.part p).sealed = false ∧ (t.part p).epoch = (s.part p).epoch + 1 ∧
      (t.part p).key = s.pkg.draws ∧ (t.part p).bond = s.pkg.draws + 1 ∧ (t.part p).resets = (s.part p).resets + 1 ∧ (t.part p).calls = [] ∧ (t.part p).reclaims = [] ∧
      (∀ e ∈ t.groups, e.2.space ≠ p) ∧ (∀ e ∈ t.colls, e.2.space ≠ p) ∧ (∀ e ∈ t.pageWaits, e.1 / 2 ^ 40 ≠ p) ∧
      (∀ e ∈ t.pageMore, e.1 / 2 ^ 40 ≠ p) ∧ (∀ e ∈ t.pkg.sessions, e.2.who ≠ .owner p) ∧ t.pkg.replies.getLast? = some { who := .operator, status := 0, values := [] }) ∧
  (∀ (s : State) (p : Nat), p < 64 → (s.part p).live = true → (s.part p).sealed = true →
    ∃ t, exec (.resetPart .operator p) s = .next t ∧ t.part p = { s.part p with resetters := (s.part p).resetters + 1 }) ∧
  (∀ (s : State) (who : Who) (p : Nat), p < 64 → who ≠ .operator → exec (.resetPart who p) s = .next (s.answer who 1))

/-- R65, R66, R96 to R98: MIGRATE is refused unless MIGPOL of the partition allows what the destination's report shows; the freeze halts its groups and, when
nothing is in flight, sends its state and answers; a failure report ends the partition at the source with its keys. An image whose signature
fails is dropped, another is installed on the cores that the
destination gives its groups (R60, R136, log 45), with its data key and a fresh bond key; its pages are pulled, those asked for first, a third digest
that fails makes a page LOST, and a source that reports loss, is cut off, or does not answer for 10 ms makes all of them LOST with one notice. That MIGRATE is answered when the state has been sent is the model's choice (log 35). -/
def Obligations.Migration : Prop :=
  (∀ (s : State) (p : Nat) (chain same : Bool), p < 64 → (s.part p).live = true → (s.part p).sealed = false → (s.part p).migrating = 0 →
    s.kindQueue p 6 = none → s.netUp = true →
    (((s.part p).migpol = 1 ∧ chain = true ∧ same = true) ∨ ((s.part p).migpol = 2 ∧ chain = true) →
      ∃ t, exec (.migrate .operator p chain same) s = .next t ∧ (t.part p).migrating = 1 ∧
        (t.part p).migNonce = s.pkg.draws ∧ t.groups = s.groups) ∧
    ((s.part p).migpol = 0 ∨ chain = false ∨ ((s.part p).migpol = 1 ∧ same = false) →
      exec (.migrate .operator p chain same) s = .next (s.answer .operator 1))) ∧
  (∀ (s : State) (p : Nat), (s.part p).migrating = 1 →
    let v := (((s.partGroups p).foldl (fun s g => s.dueInst (s.group g).launch (s.group g).inst) s).updPart p
      (fun x => { x with migrating := 4 })).settleHalts
    ∃ t, exec (.migrationFreeze p) s = .next t ∧ (v.freezeReady p = false ∨ s.pullServed = false → t = v ∧ (t.part p).migrating = 4) ∧
      (v.freezeReady p = true → s.pullServed = true → (t.part p).migrating = 2 ∧ t.pkg.migOut.length = s.pkg.migOut.length + 1 ∧
        t.pkg.replies.getLast? = some { who := .operator, status := 0, values := [] })) ∧
  (∀ (s : State) (p : Nat), p < 64 → (s.part p).migrating = 2 →
    ∃ t, exec (.migrationFailureReport p) s = .next t ∧ t.part p = { lastReading := (s.part p).lastReading } ∧
      (∀ e ∈ t.groups, e.2.space ≠ p) ∧ (∀ e ∈ t.pages, e.1 / 2 ^ 40 ≠ p) ∧ ∀ f, (t.frame f).owner ≠ p) ∧
  (∀ (s : State) (k : Nat) (raw : MigImage), s.pkg.migIn[k]? = some raw →
    exec (.migrationArrival k false) s = .next { s with pkg.migIn := s.pkg.migIn.eraseIdx k } ∧
    ∀ s2, let i := raw.moved
      let j := i.rebase s.stamp s.nextSlot (fun d => (s.ref d).toNat)
      let s1 := ({ s with pkg.migIn := s.pkg.migIn.eraseIdx k } : State).install j
      i.p < 64 → (s.part i.p).live = false → 3 ≤ s.pkg.stage → i.missing = false → raw.movesWhole = true → s.sumsFit i = true →
      (∀ e ∈ i.groups, s.groups.find e.1 = none ∧ s.clusterUp (coreOf e.1 / 8) = true ∧ s1.coreFits (coreOf e.1) = true) →
      (∀ f ∈ i.scratch, (s.frame f).owner = 127) → (s1.placeFixed j).bind (fun x => x.placeSaves j) = some s2 →
      ∃ t, exec (.migrationArrival k true) s = .next t ∧ t.pkg.migIn = s.pkg.migIn.eraseIdx k ∧ (t.part i.p).live = true ∧
        (t.part i.p).key = i.unwrapped s.pkg.boots ∧ (t.part i.p).bond = s.pkg.draws ∧ ∀ e ∈ i.groups, (t.groups.find e.1).isSome = true) ∧
  (∀ (s : State) (p q : Nat) (data : List Byte) (e : PageEnt), (s.parts.find p).isSome = true → s.nextPull p = some q → s.netUp = true →
    s.pullServed = true → s.pages.find (pageKey p q) = some e →
    (s.mayTake p 1 false = true → s.freeRun 1 0 ≠ none →
      ∃ t f, exec (.postCopyPull p q data true) s = .next t ∧
        t.pages.find (pageKey p q) = some { e with valid := true, size := 0, state := 0, fix := false, addr := f * 65536 } ∧
        (t.frame f).owner = p ∧ t.pagePending p q = false ∧ ∀ k b, k < 65536 → data[k]? = some b → t.rdByte (f * 65536 + k) = b) ∧
    ((s.mayTake p 1 false = false ∨ s.freeRun 1 0 = none) → exec (.postCopyPull p q data true) s = .next (s.wantFrames p 1 0)) ∧
    ((s.part p).pulls.getD q 0 < 2 → ∃ t, exec (.postCopyPull p q data false) s = .next t ∧
      (t.part p).pulls.getD q 0 = (s.part p).pulls.getD q 0 + 1 ∧ t.pages = s.pages) ∧
    ((s.part p).pulls.getD q 0 = 2 → s.walk p q = some (q, e) → ∃ t, exec (.postCopyPull p q data false) s = .next t ∧
      t.pages.find (pageKey p q) = some { e with state := 4 } ∧ t.pagePending p q = false)) ∧
  (∀ (s : State) (p q : Nat) (data : List Byte) (ok : Bool), s.nextPull p ≠ some q ∨ s.netUp = false →
    exec (.postCopyPull p q data ok) s = .next s) ∧
  (∀ (s : State) (x : PullEnd), s.pullPages x.p ≠ [] →
    (x.loss = true ∨ s.netUp = false ∨
      (s.pullServed = true ∧ (s.part x.p).frameWait = none ∧ (s.part x.p).pullAsked + 27000000 ≤ (s.ref 0).toNat)) →
    (∀ q ∈ s.pullPages x.p, ∃ e, s.walk x.p q = some (q, e) ∧ e.size = 0) →
    s.pkg.notices.length < 4096 → (∀ n ∈ s.pkg.notices, n.event ≠ 2) →
    ∃ t n, exec (.postCopyPullFail x) s = .next t ∧ t.pkg.notices = s.pkg.notices ++ [n] ∧ n.event = 2 ∧ n.part = x.p ∧
      n.detail = min (2 ^ 32 - 1) (s.pullPages x.p).length ∧
      ∀ q ∈ s.pullPages x.p, t.pagePending x.p q = false ∧ ∃ e, t.pages.find (pageKey x.p q) = some e ∧ e.state = 4) ∧
  (∀ (s : State) (x : PullEnd), x.loss = false → s.netUp = true → (s.ref 0).toNat < (s.part x.p).pullAsked + 27000000 →
    exec (.postCopyPullFail x) s = .next s)

/-! ## Launches and scheduling (R61, R116 to R133, R145 to R151, R288, R293 to R299, R307, R368, R369) -/

namespace Sys2Proof.Spec

open Machine

/-- Launches that a Flue may place from (R129, R132, R133), of the highest effective class that has work. -/
def top (s : State) (die : Nat) : Tab Launch :=
  (s.launches.filter (fun e => s.mayDispatch die e.1 e.2 && !s.keptBack die e.1 e.2)).filter (fun e => s.effClass e.2 == s.flueClass die)
/-- Halted instances of a partition that may return in a visit, of that class (R149). -/
def returns (s : State) (die p : Nat) : List (Nat × Nat) :=
  (s.flueReturns die).filter (fun x => (s.launch x.1).space == p && s.effClass (s.launch x.1) == s.flueClass die)

end Sys2Proof.Spec

/-- R116, R121 to R124, R131, R132, R307: LAUNCH_ACCEPT takes the oldest record of a launch queue, numbers it, and makes it eligible or completes it
with the check that failed. DISPATCH visits the next partition of the ring with work of the highest class, leaves halted instances that may
return to GROUP_RESUME, and else places its launch of the lowest number while the deficit covers an instance that fits. A launch that has not fitted for 2^20 counts is blocking. A launch whose groups
have all ended completes and releases its held children; under signature checking it runs again. -/
def Obligations.Launching : Prop :=
  (∀ (s : State) (p h : Nat) (q : Queue), s.queue p h = some q → q.kind = 1 → q.count ≠ 0 → s.flueDie h < 4 →
    s.queueSound p q = true → s.mayPop p q = true →
    s.launches.countP (fun e => s.serving e.2 == s.flueDie h && e.2.parent.isSome &&
      (match e.2.phase with | .held _ | .reading => true | _ => false)) < 4096 →
    (s.part p).sealed = false → (s.part p).frozen = false → (s.parts.find p).isSome = true →
    let b := s.headEntry p q
    let r := recordOf b
    ∃ t y, exec (.launchAccept p h) s = .next t ∧ (t.part p).launchSeq = ((s.part p).launchSeq + 1) % 2 ^ 48 ∧ t.queue p h = some y ∧
      y.head = (q.head + 1) % 2 ^ 32 ∧
      (s.recordReason p b r ≠ 0 → ∀ l, t.launches.find s.stamp = some l → l.phase = .ended) ∧
      (s.recordReason p b r = 0 → s.windowsFind p r = .ok [] → q.parents.find q.head = none →
        (∀ w ∈ r.winWords, ∃ pa e, s.xlate p none w.2 = .leaf pa e ∧ inRegion 2 pa = false ∧ s.poisoned pa 4 = false) →
        ∃ l, t.launches.find s.stamp = some l ∧ l.phase = .eligible ∧ l.space = p ∧ l.seq = (s.part p).launchSeq ∧ l.record = r ∧ l.handle = h)) ∧
  (∀ (s : State) (die p i : Nat),
    let f := s.flues.getD die {}
    let work := fun (p : Nat) => (s.flueWork die).contains (s.flueClass die, p)
    (f.visit = true → work f.ring = true → s.flueVisit die = some (f.ring, f.deficit.getD f.ring 0)) ∧
    (f.visit = false → i < 65 → (f.ring + i) % 65 = p → work p = true → (∀ j < i, work ((f.ring + j) % 65) = false) →
      s.flueVisit die = some (p, f.deficit.getD p 0 + (s.part p).weight * 4096))) ∧
  (∀ (s : State) (die core lane p d : Nat), s.dieUp die = true → core < 64 → s.flueVisit die = some (p, d) →
    ((∃ x ∈ Spec.returns s die p, s.instSize x.1 x.2 ≤ d) → exec (.dispatch die core lane) s = .next s) ∧
    ((∀ x ∈ Spec.returns s die p, d < s.instSize x.1 x.2) →
      ∃ t, exec (.dispatch die core lane) s = .next t ∧ (t.flues.getD die {}).ring = (p + 1) % 65 ∧ (t.flues.getD die {}).visit = false ∧
        ∀ id l, Spec.returns s die p = [] → s.launches.find id = some l → (id, l) ∈ Spec.top s die → l.space = p →
          (∀ e ∈ Spec.top s die, e.2.space = p → e ≠ (id, l) → l.seq < e.2.seq) →
          l.record.instGroupCount * l.record.gwidth ≤ d →
          (((s.setVisit die p d).begin id).placeOrClaim id lane l.next (die * 64 + core)).isSome = true →
          (t.launch id).phase = .running ∧ l.next < (t.launch id).next)) ∧
  (∀ (s : State) (id n : Nat) (l : Launch), s.launches.find id = some l → l.unfit = some n → n + 2 ^ 20 ≤ (s.ref l.die).toNat →
    ∃ t, exec (.launchBlocking id) s = .next t ∧ t.launches.find id = some { l with blocking := true }) ∧
  (∀ (s : State) (id : Nat) (l : Launch), s.launches.find id = some l → s.launchOver id l = true → (s.part l.space).sealed = false →
    (l.sigRun = 1 ∨ l.sigRun = 2 → l.replayable = false ∨ l.firstKill.isSome = true) →
    ∃ t, exec (.launchEnd id) s = .next t ∧ (∀ x, t.launches.find id = some x → x.phase = .ended) ∧
      ∀ c x, s.launches.find c = some x → x.phase = .held id → ∃ y, t.launches.find c = some y ∧ y.phase = .eligible) ∧
  (∀ (s u : State) (id : Nat) (l : Launch), s.launches.find id = some l → l.phase = .ended → s.postCompletion l l.done = some u →
    ∃ t, exec (.launchEnd id) s = .next t ∧ t.launches.find id = none ∧ t.mem = u.mem) ∧
  (∀ (s : State) (id : Nat) (l : Launch), s.launches.sorted = true → s.launches.find id = some l → s.launchOver id l = true → l.replayable = true →
    l.firstKill = none → (s.part l.space).sealed = false →
    (l.sigRun = 1 → ∃ t x, exec (.signatureCheck id) s = .next t ∧ t.launches.find id = some x ∧ x.sigRun = 2 ∧ x.sigsFirst = l.sigs ∧
      x.sigs = [] ∧ x.phase = .eligible ∧ x.next = 0) ∧
    (l.sigRun = 2 → (∀ w, l.sigsFirst.getD w 0 = l.sigs.getD w 0) →
      ∃ t, exec (.signatureCheck id) s = .next t ∧ t.launches.find id = some { l with sigRun := 0 }))

/-- R145 to R147, R149 to R151: a slice ends after its length, or at the operator's command; a partition whose slice has ended is due to halt on every core of
its instances when other work needs its room, and the instance that has been halted longest returns whole with full budgets. A hold whose
budget has run out ends, with a report for every thread. An in-field test halts the groups of its cluster, and begins when it has claimed
their units. -/
def Obligations.HaltsAndReturns : Prop :=
  (∀ (s : State) (p c : Nat) (x : Slice), s.slices.find (p * 256 + c) = some x →
    (x.start + (s.part p).slice * 2700 ≤ (s.ref (dieOf c)).toNat →
      ∃ t, exec (.sliceEnd p c) s = .next t ∧ t.slices.find (p * 256 + c) = some { x with ended := true }) ∧
    ((s.ref (dieOf c)).toNat < x.start + (s.part p).slice * 2700 → exec (.sliceEnd p c) s = .next s) ∧
    (p ≤ 64 → c < 256 → (s.part p).sealed = false → (∃ e ∈ s.groups, coreOf e.1 = c ∧ e.2.space = p) →
      ∃ t, exec (.preempt .operator p c) s = .next t ∧ t.slices.find (p * 256 + c) = some { x with ended := true } ∧
        t.pkg.replies = s.pkg.replies ++ [{ who := .operator, status := 0, values := [] }])) ∧
  (∀ (s : State) (who : Who) (p c : Nat), p ≤ 64 → c < 256 → who ≠ .operator → exec (.preempt who p c) s = .next (s.answer who 1)) ∧
  (∀ (s : State) (p c : Nat) (x : Slice), s.groups.sorted = true → s.slices.find (p * 256 + c) = some x → x.ended = true →
    (∀ e ∈ s.slices, e.1 % 256 = c → e.1 / 256 ≠ p → e.2.ended = true → x.start ≤ e.2.start) → s.workWaits p c = true →
    ∃ t, exec (.partitionHalt p c) s = .next t ∧
      ∀ e ∈ s.groups, coreOf e.1 = c → e.2.space = p → ∀ g ∈ s.instGroups e.2.launch e.2.inst,
        (t.group g).halted = (s.group g).halted ∧ (t.group g).haltDue = !(s.group g).halted) ∧
  (∀ (s u : State) (p c launch inst : Nat), s.groups.sorted = true → s.nextHalted p c = some (launch, inst) → s.mayReturn launch inst = true →
    (∃ d, s.flueVisit (dieOf c) = some (p, d) ∧ s.instSize launch inst ≤ d) → s.effClass (s.launch launch) = s.flueClass (dieOf c) →
    let gs := s.instGroups launch inst
    (s.backClaims p gs).bind (fun us => s.claimAll us) = some u →
    (∀ g ∈ gs, ∀ k ∈ u.units g, (u.group g).isSpilt k = true → u.sealOk g k = true) →
    ∃ t, exec (.groupResume p c true) s = .next t ∧
      ∀ g ∈ gs, (t.group g).halted = false ∧ (t.group g).spilt = 0 ∧ (t.group g).budget = 65536) ∧
  (∀ (s : State) (gid : Nat) (g : Group) (a : Addr), s.threads.sorted = true → s.groups.find gid = some g → g.hold = some a → g.budget = 0 →
    ∃ t, exec (.nopreExpiry gid) s = .next t ∧ (t.group gid).hold = none ∧
      ∀ l ∈ s.live gid, (s.thread l).inHandler = true → (t.groups.find gid).isSome = true →
        (t.thread l).reports = (s.thread l).reports ++ [{ cause := .nopreExpired, i1 := a.setWidth 64 }]) ∧
  (∀ (s : State) (c : Fin 32), s.groups.sorted = true → s.clusterUp c.val = true → s.pkg.tests.contains c.val = false →
    s.pkg.testing.contains c.val = false →
    (∀ e ∈ s.groups, coreOf e.1 / 8 = c.val → ∀ g ∈ s.instGroups e.2.launch e.2.inst, (s.group g).hold = none) →
    let u := (s.clusterGroups c.val).foldl (fun s e => if (s.group e.1).halted then s else s.haltInst e.2.launch e.2.inst) s
    let v := { u with pkg.tests := insertAsc c.val s.pkg.tests }
    ∃ t, exec (.infieldTest c) s = .next t ∧ (∀ e ∈ s.groups, coreOf e.1 / 8 = c.val → (t.group e.1).halted = true) ∧
      t.pkg.tests.contains c.val = true ∧
      t.pkg.testing.contains c.val = (v.claimAll (v.unitsOf (v.clusterGroups c.val))).isSome)

/-- R122, R133, R188, R294 to R298: an uncorrectable error that a launch consumes takes its groups off their cores; a replayable launch is eligible again with one more
attempt, and the eighth consumption, or any of another launch, kills it with 0x20. -/
def Obligations.UncorrectableErrors : Prop :=
  ∀ (s : State) (id : Nat) (l : Launch), s.launches.sorted = true → s.launches.find id = some l → s.groupsOf id ≠ [] → l.phase = .running →
    ∃ t x, exec (.uncorrectableError id) s = .next t ∧ t.launches.find id = some x ∧ t.groupsOf id = [] ∧ x.consumptions = l.consumptions + 1 ∧
      (l.replayable = true → l.consumptions + 1 < 8 →
        x.phase = .eligible ∧ x.attempts = l.attempts + 1 ∧ x.next = 0 ∧ x.firstKill = l.firstKill) ∧
      (l.replayable = false ∨ 8 ≤ l.consumptions + 1 →
        x.firstKill = some (l.firstKill.getD 0x20) ∧ x.next = l.record.instances)

/-- R283, R288, R293, R368, R369: a report is taken by a ready thread outside a handler, imprecise for the causes of stores and asynchronous otherwise, at the
instruction not yet issued; a thread in SLEEP goes on at the next address when its count is reached, one that yielded is ready again. -/
def Obligations.Wakes : Prop :=
  (∀ (s : State) (l : Nat) (r : TrapInfo) (rest : List TrapInfo), (s.thread l).reports = r :: rest → (s.thread l).inHandler = false →
    (s.group (gidOf l)).halted = false → (s.thread l).st = .ready → s.reportKnown l = true →
    let imp := r.cause == .storeFault || r.cause == .pageLost
    let skid := min 64 ((s.thread l).retired - r.i0.toNat)
    ∃ t re, exec (.reportDelivery l) s = .next t ∧
      t = (s.updThread l (fun h => { h with reports := rest })).takeTrap l
        (if imp then { r with i0 := 0, i2 := r.i2 + BitVec.ofNat 64 (256 * skid) } else r) (s.thread l).pc imp (!imp) re) ∧
  (∀ (s : State) (l : Nat), (s.thread l).inHandler = true → exec (.reportDelivery l) s = .next s) ∧
  (∀ (s : State) (l n : Nat), (s.thread l).st = .waiting (.sleep n) → (s.group (gidOf l)).halted = false →
    (n ≤ (s.group (gidOf l)).cycle.toNat → ∃ t, exec (.sleepWake l) s = .next t ∧ (t.thread l).st = .ready ∧
      (t.thread l).pc = nextAddr (s.thread l).pc) ∧
    ((s.group (gidOf l)).cycle.toNat < n → exec (.sleepWake l) s = .next s)) ∧
  (∀ (s : State) (l n : Nat), (s.thread l).st = .waiting (.yield n) →
    (n ≤ (s.cycles (coreOf (gidOf l))).toNat → ∃ t, exec (.yieldReady l) s = .next t ∧ (t.thread l).st = .ready ∧
      (t.thread l).pc = (s.thread l).pc) ∧
    ((s.cycles (coreOf (gidOf l))).toNat < n → exec (.yieldReady l) s = .next s))

/-! ## What the outside reads (R48, R59, R61, R70, R71, R305, R310 to R314, R435) -/

/-- R48, R59, R61, R68, R70, R71, R435: a session opens on a window without one with a signature over its challenge that verifies, and an owner
gets a session key and a report; a signature that fails uses up the challenge (log 73); a message whose tag fails closes its session.
An attestation report holds its nonce and takes the next sequence number. NOTICES delivers the oldest notices and the number dropped. -/
def Obligations.SessionsAndReports : Prop :=
  (∀ (s : State) (w p : Nat) (key nonce : List Byte), s.pkg.stage ≠ 0 → (s.pkg.challenges.find w).isSome = true →
    s.pkg.sessions.find w = none →
    let used := fun (t : State) (who : Who) (k : List Byte) => t.pkg.challenges.find w = none ∧
      ∃ x, t.pkg.sessions.find w = some x ∧ x.who = who ∧ x.key = k ∧ x.received = 0
    (∀ who ∈ [Who.operator, .auditor], ∃ t, exec (.sessionOpen who w true key nonce) s = .next t ∧ used t who [] ∧
      t.pkg.replies = s.pkg.replies ++ [{ who := who, status := 0, values := [] }]) ∧
    (p < 64 → (s.part p).live = true → (s.part p).sealed = false → ∃ t b, exec (.sessionOpen (.owner p) w true key nonce) s = .next t ∧
      used t (.owner p) (fit 32 (Config.shake256
        (Config.sharedSecret s.pkg.boots key ++ key ++ fit 56 (Config.x448Key s.pkg.boots) ++ nonce) 32)) ∧
      t.pkg.reportSeq = s.pkg.reportSeq + 1 ∧
      t.pkg.replies = s.pkg.replies ++ [{ who := .owner p, status := 0, values := [], bytes := b }] ∧
      (b.drop 32).take 64 = fit 64 (Config.shake256 (key ++ nonce) 64)) ∧
    ∀ who, exec (.sessionOpen who w false key nonce) s = .next { s with pkg.challenges := s.pkg.challenges.erase w }) ∧
  (∀ (s : State) (who : Who) (w : Nat) (ok : Bool) (key nonce : List Byte),
    s.pkg.challenges.find w = none ∨ (s.pkg.sessions.find w).isSome = true → exec (.sessionOpen who w ok key nonce) s = .next s) ∧
  (∀ (s : State) (w : Nat) (x : Session), s.pkg.sessions.find w = some x →
    (∃ t, exec (.sessionMessage w true) s = .next t ∧ t.pkg.sessions.find w = some { x with received := x.received + 1 }) ∧
    (∃ t, exec (.sessionMessage w false) s = .next t ∧ t.pkg.sessions.find w = none)) ∧
  (∀ (s : State) (who : Who) (subject : Nat) (nonce : List Byte), s.pkg.stage ≠ 0 → nonce.length = 64 → (subject ≤ 64 ∨ subject = 0xFF) →
    let may := match who with
      | .operator => subject < 64 || subject == 0xFF
      | .owner p => subject == p || subject == 0xFF
      | .auditor => true
    (may = false → exec (.attestationRequest who subject nonce) s = .next (s.answer who 1)) ∧
    (may = true → subject ≠ 0xFF → (s.part subject).sealed = true → exec (.attestationRequest who subject nonce) s = .next (s.answer who 4)) ∧
    (may = true → (subject = 0xFF ∨ (s.part subject).sealed = false) → ∃ t b, exec (.attestationRequest who subject nonce) s = .next t ∧
      t.pkg.replies = s.pkg.replies ++ [{ who := who, status := 0, values := [], bytes := b }] ∧ t.pkg.reportSeq = s.pkg.reportSeq + 1 ∧
      b.take 4 = toLE 4 0x5441584B ∧ (b.drop 7).take 1 = toLE 1 subject ∧ (b.drop 16).take 8 = toLE 8 (s.pkg.reportSeq + 1) ∧
      (b.drop 32).take 64 = nonce)) ∧
  (∀ (s : State) (n : Nat), 1 ≤ n → n ≤ 64 → ∃ t, exec (.notices .operator n) s = .next t ∧ t.pkg.notices = s.pkg.notices.drop n ∧
    t.pkg.noticesDropped = 0 ∧ (let v := [BitVec.ofNat 64 s.pkg.noticesDropped]
      let b := (s.pkg.notices.take n).flatMap Notice.bytes
      t.pkg.replies = s.pkg.replies ++ [{ who := .operator, status := 0, values := v, bytes := b }])) ∧
  (∀ (s : State) (who : Who) (n : Nat), 1 ≤ n → n ≤ 64 → who ≠ .operator → exec (.notices who n) s = .next (s.answer who 1)) ∧
  (∀ (s : State) (who : Who) (n : Nat), n = 0 ∨ 64 < n → exec (.notices who n) s = .next (s.answer who 2))

/-- R305, R310 to R314: the energy of an interval goes to the accounts in the shares of the work that each did, and what is left to the device
account: it is added to its part and to the total in whole µJ, with the fraction carried, and that of a discarded attempt in addition to
the replay field; EREAD gives a signed reading chained to
the one before it; SOOTRD reads the record as last stored, SOOT_UPDATE stores it; a LOSS record is appended when there is room. What a
row of R311 counts, and that a share is rounded down to what the model counts, are the model's choices (log 12). -/
def Obligations.Accounts : Prop :=
  (∀ (s : State) (island row amount p : Nat),
    let j := if row ≤ 2 ∨ row = 6 then island else 0
    let ws := s.workOf row j
    let share := fun (e : (Nat × Nat) × Nat) => amount * e.2 / (ws.map (·.2)).sum
    let added := fun (space i : Nat) =>
      let mine := ws.filter (fun e => e.1.1 == space)
      if i = 0 ∨ i = energyField row then (mine.map share).sum
      else if i = 7 then ((mine.filter (fun e => e.1.2 == 1)).map share).sum
      else 0
    let shown := fun (a b : Energy) (i n : Nat) => a.carry.getD i 0 < 1000000 →
      b.fields.getD i 0 = a.fields.getD i 0 + BitVec.ofNat 64 ((a.carry.getD i 0 + n) / 1000000) ∧
      b.carry.getD i 0 = (a.carry.getD i 0 + n) % 1000000
    ∃ t, exec (.energyInterval island row amount) s = .next t ∧ (∀ e ∈ t.work, e.1 / 2 ^ 47 ≠ row * 64 + j) ∧
      (p ≤ 64 → (s.part p).live = true → ∀ i < 8, shown (s.part p).energy (t.part p).energy i (added p i)) ∧
      ((∀ e ∈ ws, e.1.1 ≤ 64 ∧ (s.part e.1.1).live = true) → ∀ i < 8, shown s.pkg.energy t.pkg.energy i
        (if i = 0 ∨ i = energyField row then amount - (ws.map share).sum else 0))) ∧
  (∀ (s : State) (subject : Nat), (subject ≤ 64 ∨ subject = 0xFF) →
    (∀ who, who ≠ .auditor → exec (.eread who subject) s = .next (s.answer who 1)) ∧
    let away := subject ≠ 0xFF ∧ ((s.part subject).sealed = true ∨ (s.part subject).migrating = 2 ∨
      s.pkg.migIn.any (fun i => i.p == subject) = true)
    (away → exec (.eread .auditor subject) s = .next (s.answer .auditor 4)) ∧
    (¬ away → ∃ t b, exec (.eread .auditor subject) s = .next t ∧
      t.pkg.replies = s.pkg.replies ++ [{ who := .auditor, status := 0, values := [], bytes := b }] ∧
      t.pkg.readingSeq = s.pkg.readingSeq + 1 ∧ t.pkg.readings = s.pkg.readings ++ [b] ∧ t.prevReading subject = Config.shake256 b 64 ∧
      b.take 4 = toLE 4 0x4E45584B ∧ (b.drop 6).take 1 = toLE 1 subject ∧ (b.drop 16).take 8 = toLE 8 (s.pkg.readingSeq + 1))) ∧
  (∀ (s : State) (who : Who) (sect index : Nat), sect ≤ 4 → index < [4096, 36, 1088, 40, 32].getD sect 0 →
    (∀ p, exec (.sootrd (.owner p) sect index) s = .next (s.answer (.owner p) 1)) ∧
    ((∀ p, who ≠ .owner p) → ∃ b, exec (.sootrd who sect index) s = .next (s.answer who 0 [] b) ∧
      (sect = 0 → ∀ k < 8, (b.drop (8 * k)).take 8 = toLE 8 (s.pkg.soot.getD (sootKey 0 index k) 0)) ∧
      (sect = 2 → ∀ k < 32, (b.drop (2 * k)).take 2 = toLE 2 (s.pkg.soot.getD (sootKey 2 index k) 0)))) ∧
  (∀ (s : State) (who : Who) (sect index : Nat), 4 < sect ∨ [4096, 36, 1088, 40, 32].getD sect 0 ≤ index →
    exec (.sootrd who sect index) s = .next (s.answer who 2)) ∧
  (∀ s : State, ∃ t, exec .sootUpdate s = .next t ∧ t.pkg.soot = t.pkg.sootLive ∧ t.pkg.sootMark = (s.ref 0).toNat) ∧
  (∀ (s : State) (p : Nat) (q : Queue), (s.part p).trctl.getLsbD 63 = true → s.queue p ((s.part p).trctl.toNat / 2 ^ 16 % 2 ^ 16) = some q →
    q.kind = 0 → q.esize = 2 → Spec.room s p q = true → (s.part p).traceDropped ≠ 0 →
    ∃ t y, exec (.traceLoss p) s = .next t ∧ (t.part p).traceDropped = 0 ∧
      t.queue p ((s.part p).trctl.toNat / 2 ^ 16 % 2 ^ 16) = some y ∧ y.tail = (q.tail + 1) % 2 ^ 32)
end

