-- ==== Sys2Proof/Laws/State.lean ====
section
/-! SUPPORT. One lemma per field for every update of one field of the state: what the update does to its field, and that every
other field is as before. -/
namespace Sys2Proof.Machine

variable (s : State)

/-! ## Page tables: making them changes nothing else -/

theorem State.makeTable_only (space level page : Nat) : ∃ t, s.makeTable space level page = { s with tables := t } := by
  unfold State.makeTable
  split
  · exact ⟨s.tables, rfl⟩
  · exact ⟨_, rfl⟩
theorem State.makeAll_only (space page : Nat) (ls : List Nat) :
    ∃ t, ls.foldl (fun s l => s.makeTable space l page) s = { s with tables := t } := by
  induction ls generalizing s with
  | nil => exact ⟨s.tables, rfl⟩
  | cons l ls ih =>
    obtain ⟨t, h⟩ := s.makeTable_only space l page
    obtain ⟨u, k⟩ := ih (s.makeTable space l page)
    exact ⟨u, by rw [List.foldl_cons, k, h]⟩
theorem State.makeTables_only (space page code : Nat) : ∃ t, s.makeTables space page code = { s with tables := t } := by
  obtain ⟨t, h⟩ := s.makeAll_only space page (upTo (5 - code))
  unfold State.makeTables
  rw [h]
  split
  · exact ⟨t, rfl⟩
  · exact ⟨_, rfl⟩

/-! ## State.wrByte -/

@[simp] theorem State.wrByte_pkg (a : Nat) (b : Byte) : (s.wrByte a b).pkg = s.pkg := rfl
@[simp] theorem State.wrByte_mem (a : Nat) (b : Byte) : (s.wrByte a b).mem = Tab.putZ 0 s.mem a b := rfl
@[simp] theorem State.wrByte_opbuf (a : Nat) (b : Byte) : (s.wrByte a b).opbuf = s.opbuf := rfl
@[simp] theorem State.wrByte_poison (a : Nat) (b : Byte) : (s.wrByte a b).poison = s.poison := rfl
@[simp] theorem State.wrByte_fullUnits (a : Nat) (b : Byte) : (s.wrByte a b).fullUnits = s.fullUnits := rfl
@[simp] theorem State.wrByte_pages (a : Nat) (b : Byte) : (s.wrByte a b).pages = s.pages := rfl
@[simp] theorem State.wrByte_tables (a : Nat) (b : Byte) : (s.wrByte a b).tables = s.tables := rfl
@[simp] theorem State.wrByte_own (a : Nat) (b : Byte) : (s.wrByte a b).own = s.own := rfl
@[simp] theorem State.wrByte_clock (a : Nat) (b : Byte) : (s.wrByte a b).clock = s.clock := rfl
@[simp] theorem State.wrByte_slots (a : Nat) (b : Byte) : (s.wrByte a b).slots = s.slots := rfl
@[simp] theorem State.wrByte_nextSlot (a : Nat) (b : Byte) : (s.wrByte a b).nextSlot = s.nextSlot := rfl
@[simp] theorem State.wrByte_pageWaits (a : Nat) (b : Byte) : (s.wrByte a b).pageWaits = s.pageWaits := rfl
@[simp] theorem State.wrByte_pageMore (a : Nat) (b : Byte) : (s.wrByte a b).pageMore = s.pageMore := rfl
@[simp] theorem State.wrByte_parts (a : Nat) (b : Byte) : (s.wrByte a b).parts = s.parts := rfl
@[simp] theorem State.wrByte_queues (a : Nat) (b : Byte) : (s.wrByte a b).queues = s.queues := rfl
@[simp] theorem State.wrByte_launches (a : Nat) (b : Byte) : (s.wrByte a b).launches = s.launches := rfl
@[simp] theorem State.wrByte_flues (a : Nat) (b : Byte) : (s.wrByte a b).flues = s.flues := rfl
@[simp] theorem State.wrByte_slices (a : Nat) (b : Byte) : (s.wrByte a b).slices = s.slices := rfl
@[simp] theorem State.wrByte_grants (a : Nat) (b : Byte) : (s.wrByte a b).grants = s.grants := rfl
@[simp] theorem State.wrByte_groups (a : Nat) (b : Byte) : (s.wrByte a b).groups = s.groups := rfl
@[simp] theorem State.wrByte_threads (a : Nat) (b : Byte) : (s.wrByte a b).threads = s.threads := rfl
@[simp] theorem State.wrByte_grates (a : Nat) (b : Byte) : (s.wrByte a b).grates = s.grates := rfl
@[simp] theorem State.wrByte_vreg (a : Nat) (b : Byte) : (s.wrByte a b).vreg = s.vreg := rfl
@[simp] theorem State.wrByte_preg (a : Nat) (b : Byte) : (s.wrByte a b).preg = s.preg := rfl
@[simp] theorem State.wrByte_ureg (a : Nat) (b : Byte) : (s.wrByte a b).ureg = s.ureg := rfl
@[simp] theorem State.wrByte_treg (a : Nat) (b : Byte) : (s.wrByte a b).treg = s.treg := rfl
@[simp] theorem State.wrByte_pinreg (a : Nat) (b : Byte) : (s.wrByte a b).pinreg = s.pinreg := rfl
@[simp] theorem State.wrByte_pinDir (a : Nat) (b : Byte) : (s.wrByte a b).pinDir = s.pinDir := rfl
@[simp] theorem State.wrByte_accs (a : Nat) (b : Byte) : (s.wrByte a b).accs = s.accs := rfl
@[simp] theorem State.wrByte_planesA (a : Nat) (b : Byte) : (s.wrByte a b).planesA = s.planesA := rfl
@[simp] theorem State.wrByte_planesS (a : Nat) (b : Byte) : (s.wrByte a b).planesS = s.planesS := rfl
@[simp] theorem State.wrByte_fills (a : Nat) (b : Byte) : (s.wrByte a b).fills = s.fills := rfl
@[simp] theorem State.wrByte_stores (a : Nat) (b : Byte) : (s.wrByte a b).stores = s.stores := rfl
@[simp] theorem State.wrByte_colls (a : Nat) (b : Byte) : (s.wrByte a b).colls = s.colls := rfl
@[simp] theorem State.wrByte_tloads (a : Nat) (b : Byte) : (s.wrByte a b).tloads = s.tloads := rfl
@[simp] theorem State.wrByte_matq (a : Nat) (b : Byte) : (s.wrByte a b).matq = s.matq := rfl
@[simp] theorem State.wrByte_searches (a : Nat) (b : Byte) : (s.wrByte a b).searches = s.searches := rfl
@[simp] theorem State.wrByte_sigrds (a : Nat) (b : Byte) : (s.wrByte a b).sigrds = s.sigrds := rfl
@[simp] theorem State.wrByte_stops (a : Nat) (b : Byte) : (s.wrByte a b).stops = s.stops := rfl
@[simp] theorem State.wrByte_bars (a : Nat) (b : Byte) : (s.wrByte a b).bars = s.bars := rfl
@[simp] theorem State.wrByte_ctrs (a : Nat) (b : Byte) : (s.wrByte a b).ctrs = s.ctrs := rfl
@[simp] theorem State.wrByte_lcb (a : Nat) (b : Byte) : (s.wrByte a b).lcb = s.lcb := rfl
@[simp] theorem State.wrByte_issued (a : Nat) (b : Byte) : (s.wrByte a b).issued = s.issued := rfl
@[simp] theorem State.wrByte_refCount (a : Nat) (b : Byte) : (s.wrByte a b).refCount = s.refCount := rfl
@[simp] theorem State.wrByte_coreCycle (a : Nat) (b : Byte) : (s.wrByte a b).coreCycle = s.coreCycle := rfl
@[simp] theorem State.wrByte_traceSel (a : Nat) (b : Byte) : (s.wrByte a b).traceSel = s.traceSel := rfl
@[simp] theorem State.wrByte_stamp (a : Nat) (b : Byte) : (s.wrByte a b).stamp = s.stamp := rfl
@[simp] theorem State.wrByte_agenda (a : Nat) (b : Byte) : (s.wrByte a b).agenda = s.agenda := rfl
@[simp] theorem State.wrByte_cur (a : Nat) (b : Byte) : (s.wrByte a b).cur = s.cur := rfl

/-! ## State.zeroMem -/

@[simp] theorem State.zeroMem_pkg (lo hi : Nat) : (s.zeroMem lo hi).pkg = s.pkg := rfl
@[simp] theorem State.zeroMem_mem (lo hi : Nat) : (s.zeroMem lo hi).mem = Tab.keep s.mem (fun a _ => a < lo || hi ≤ a) := rfl
@[simp] theorem State.zeroMem_opbuf (lo hi : Nat) : (s.zeroMem lo hi).opbuf = s.opbuf := rfl
@[simp] theorem State.zeroMem_poison (lo hi : Nat) : (s.zeroMem lo hi).poison = s.poison := rfl
@[simp] theorem State.zeroMem_fullUnits (lo hi : Nat) : (s.zeroMem lo hi).fullUnits = s.fullUnits := rfl
@[simp] theorem State.zeroMem_pages (lo hi : Nat) : (s.zeroMem lo hi).pages = s.pages := rfl
@[simp] theorem State.zeroMem_tables (lo hi : Nat) : (s.zeroMem lo hi).tables = s.tables := rfl
@[simp] theorem State.zeroMem_own (lo hi : Nat) : (s.zeroMem lo hi).own = s.own := rfl
@[simp] theorem State.zeroMem_clock (lo hi : Nat) : (s.zeroMem lo hi).clock = s.clock := rfl
@[simp] theorem State.zeroMem_slots (lo hi : Nat) : (s.zeroMem lo hi).slots = s.slots := rfl
@[simp] theorem State.zeroMem_nextSlot (lo hi : Nat) : (s.zeroMem lo hi).nextSlot = s.nextSlot := rfl
@[simp] theorem State.zeroMem_pageWaits (lo hi : Nat) : (s.zeroMem lo hi).pageWaits = s.pageWaits := rfl
@[simp] theorem State.zeroMem_pageMore (lo hi : Nat) : (s.zeroMem lo hi).pageMore = s.pageMore := rfl
@[simp] theorem State.zeroMem_parts (lo hi : Nat) : (s.zeroMem lo hi).parts = s.parts := rfl
@[simp] theorem State.zeroMem_queues (lo hi : Nat) : (s.zeroMem lo hi).queues = s.queues := rfl
@[simp] theorem State.zeroMem_launches (lo hi : Nat) : (s.zeroMem lo hi).launches = s.launches := rfl
@[simp] theorem State.zeroMem_flues (lo hi : Nat) : (s.zeroMem lo hi).flues = s.flues := rfl
@[simp] theorem State.zeroMem_slices (lo hi : Nat) : (s.zeroMem lo hi).slices = s.slices := rfl
@[simp] theorem State.zeroMem_grants (lo hi : Nat) : (s.zeroMem lo hi).grants = s.grants := rfl
@[simp] theorem State.zeroMem_groups (lo hi : Nat) : (s.zeroMem lo hi).groups = s.groups := rfl
@[simp] theorem State.zeroMem_threads (lo hi : Nat) : (s.zeroMem lo hi).threads = s.threads := rfl
@[simp] theorem State.zeroMem_grates (lo hi : Nat) : (s.zeroMem lo hi).grates = s.grates := rfl
@[simp] theorem State.zeroMem_vreg (lo hi : Nat) : (s.zeroMem lo hi).vreg = s.vreg := rfl
@[simp] theorem State.zeroMem_preg (lo hi : Nat) : (s.zeroMem lo hi).preg = s.preg := rfl
@[simp] theorem State.zeroMem_ureg (lo hi : Nat) : (s.zeroMem lo hi).ureg = s.ureg := rfl
@[simp] theorem State.zeroMem_treg (lo hi : Nat) : (s.zeroMem lo hi).treg = s.treg := rfl
@[simp] theorem State.zeroMem_pinreg (lo hi : Nat) : (s.zeroMem lo hi).pinreg = s.pinreg := rfl
@[simp] theorem State.zeroMem_pinDir (lo hi : Nat) : (s.zeroMem lo hi).pinDir = s.pinDir := rfl
@[simp] theorem State.zeroMem_accs (lo hi : Nat) : (s.zeroMem lo hi).accs = s.accs := rfl
@[simp] theorem State.zeroMem_planesA (lo hi : Nat) : (s.zeroMem lo hi).planesA = s.planesA := rfl
@[simp] theorem State.zeroMem_planesS (lo hi : Nat) : (s.zeroMem lo hi).planesS = s.planesS := rfl
@[simp] theorem State.zeroMem_fills (lo hi : Nat) : (s.zeroMem lo hi).fills = s.fills := rfl
@[simp] theorem State.zeroMem_stores (lo hi : Nat) : (s.zeroMem lo hi).stores = s.stores := rfl
@[simp] theorem State.zeroMem_colls (lo hi : Nat) : (s.zeroMem lo hi).colls = s.colls := rfl
@[simp] theorem State.zeroMem_tloads (lo hi : Nat) : (s.zeroMem lo hi).tloads = s.tloads := rfl
@[simp] theorem State.zeroMem_matq (lo hi : Nat) : (s.zeroMem lo hi).matq = s.matq := rfl
@[simp] theorem State.zeroMem_searches (lo hi : Nat) : (s.zeroMem lo hi).searches = s.searches := rfl
@[simp] theorem State.zeroMem_sigrds (lo hi : Nat) : (s.zeroMem lo hi).sigrds = s.sigrds := rfl
@[simp] theorem State.zeroMem_stops (lo hi : Nat) : (s.zeroMem lo hi).stops = s.stops := rfl
@[simp] theorem State.zeroMem_bars (lo hi : Nat) : (s.zeroMem lo hi).bars = s.bars := rfl
@[simp] theorem State.zeroMem_ctrs (lo hi : Nat) : (s.zeroMem lo hi).ctrs = s.ctrs := rfl
@[simp] theorem State.zeroMem_lcb (lo hi : Nat) : (s.zeroMem lo hi).lcb = s.lcb := rfl
@[simp] theorem State.zeroMem_issued (lo hi : Nat) : (s.zeroMem lo hi).issued = s.issued := rfl
@[simp] theorem State.zeroMem_refCount (lo hi : Nat) : (s.zeroMem lo hi).refCount = s.refCount := rfl
@[simp] theorem State.zeroMem_coreCycle (lo hi : Nat) : (s.zeroMem lo hi).coreCycle = s.coreCycle := rfl
@[simp] theorem State.zeroMem_traceSel (lo hi : Nat) : (s.zeroMem lo hi).traceSel = s.traceSel := rfl
@[simp] theorem State.zeroMem_stamp (lo hi : Nat) : (s.zeroMem lo hi).stamp = s.stamp := rfl
@[simp] theorem State.zeroMem_agenda (lo hi : Nat) : (s.zeroMem lo hi).agenda = s.agenda := rfl
@[simp] theorem State.zeroMem_cur (lo hi : Nat) : (s.zeroMem lo hi).cur = s.cur := rfl

/-! ## State.setV -/

@[simp] theorem State.setV_pkg (tid n : Nat) (x : W32) : (s.setV tid n x).pkg = s.pkg := rfl
@[simp] theorem State.setV_mem (tid n : Nat) (x : W32) : (s.setV tid n x).mem = s.mem := rfl
@[simp] theorem State.setV_opbuf (tid n : Nat) (x : W32) : (s.setV tid n x).opbuf = s.opbuf := rfl
@[simp] theorem State.setV_poison (tid n : Nat) (x : W32) : (s.setV tid n x).poison = s.poison := rfl
@[simp] theorem State.setV_fullUnits (tid n : Nat) (x : W32) : (s.setV tid n x).fullUnits = s.fullUnits := rfl
@[simp] theorem State.setV_pages (tid n : Nat) (x : W32) : (s.setV tid n x).pages = s.pages := rfl
@[simp] theorem State.setV_tables (tid n : Nat) (x : W32) : (s.setV tid n x).tables = s.tables := rfl
@[simp] theorem State.setV_own (tid n : Nat) (x : W32) : (s.setV tid n x).own = s.own := rfl
@[simp] theorem State.setV_clock (tid n : Nat) (x : W32) : (s.setV tid n x).clock = s.clock := rfl
@[simp] theorem State.setV_slots (tid n : Nat) (x : W32) : (s.setV tid n x).slots = s.slots := rfl
@[simp] theorem State.setV_nextSlot (tid n : Nat) (x : W32) : (s.setV tid n x).nextSlot = s.nextSlot := rfl
@[simp] theorem State.setV_pageWaits (tid n : Nat) (x : W32) : (s.setV tid n x).pageWaits = s.pageWaits := rfl
@[simp] theorem State.setV_pageMore (tid n : Nat) (x : W32) : (s.setV tid n x).pageMore = s.pageMore := rfl
@[simp] theorem State.setV_parts (tid n : Nat) (x : W32) : (s.setV tid n x).parts = s.parts := rfl
@[simp] theorem State.setV_queues (tid n : Nat) (x : W32) : (s.setV tid n x).queues = s.queues := rfl
@[simp] theorem State.setV_launches (tid n : Nat) (x : W32) : (s.setV tid n x).launches = s.launches := rfl
@[simp] theorem State.setV_flues (tid n : Nat) (x : W32) : (s.setV tid n x).flues = s.flues := rfl
@[simp] theorem State.setV_slices (tid n : Nat) (x : W32) : (s.setV tid n x).slices = s.slices := rfl
@[simp] theorem State.setV_grants (tid n : Nat) (x : W32) : (s.setV tid n x).grants = s.grants := rfl
@[simp] theorem State.setV_groups (tid n : Nat) (x : W32) : (s.setV tid n x).groups = s.groups := rfl
@[simp] theorem State.setV_threads (tid n : Nat) (x : W32) : (s.setV tid n x).threads = s.threads := rfl
@[simp] theorem State.setV_grates (tid n : Nat) (x : W32) : (s.setV tid n x).grates = s.grates := rfl
@[simp] theorem State.setV_vreg (tid n : Nat) (x : W32) : (s.setV tid n x).vreg = s.vreg.putZ 0 (tid * 256 + n) x := rfl
@[simp] theorem State.setV_preg (tid n : Nat) (x : W32) : (s.setV tid n x).preg = s.preg := rfl
@[simp] theorem State.setV_ureg (tid n : Nat) (x : W32) : (s.setV tid n x).ureg = s.ureg := rfl
@[simp] theorem State.setV_treg (tid n : Nat) (x : W32) : (s.setV tid n x).treg = s.treg := rfl
@[simp] theorem State.setV_pinreg (tid n : Nat) (x : W32) : (s.setV tid n x).pinreg = s.pinreg := rfl
@[simp] theorem State.setV_pinDir (tid n : Nat) (x : W32) : (s.setV tid n x).pinDir = s.pinDir := rfl
@[simp] theorem State.setV_accs (tid n : Nat) (x : W32) : (s.setV tid n x).accs = s.accs := rfl
@[simp] theorem State.setV_planesA (tid n : Nat) (x : W32) : (s.setV tid n x).planesA = s.planesA := rfl
@[simp] theorem State.setV_planesS (tid n : Nat) (x : W32) : (s.setV tid n x).planesS = s.planesS := rfl
@[simp] theorem State.setV_fills (tid n : Nat) (x : W32) : (s.setV tid n x).fills = s.fills := rfl
@[simp] theorem State.setV_stores (tid n : Nat) (x : W32) : (s.setV tid n x).stores = s.stores := rfl
@[simp] theorem State.setV_colls (tid n : Nat) (x : W32) : (s.setV tid n x).colls = s.colls := rfl
@[simp] theorem State.setV_tloads (tid n : Nat) (x : W32) : (s.setV tid n x).tloads = s.tloads := rfl
@[simp] theorem State.setV_matq (tid n : Nat) (x : W32) : (s.setV tid n x).matq = s.matq := rfl
@[simp] theorem State.setV_searches (tid n : Nat) (x : W32) : (s.setV tid n x).searches = s.searches := rfl
@[simp] theorem State.setV_sigrds (tid n : Nat) (x : W32) : (s.setV tid n x).sigrds = s.sigrds := rfl
@[simp] theorem State.setV_stops (tid n : Nat) (x : W32) : (s.setV tid n x).stops = s.stops := rfl
@[simp] theorem State.setV_bars (tid n : Nat) (x : W32) : (s.setV tid n x).bars = s.bars := rfl
@[simp] theorem State.setV_ctrs (tid n : Nat) (x : W32) : (s.setV tid n x).ctrs = s.ctrs := rfl
@[simp] theorem State.setV_lcb (tid n : Nat) (x : W32) : (s.setV tid n x).lcb = s.lcb := rfl
@[simp] theorem State.setV_issued (tid n : Nat) (x : W32) : (s.setV tid n x).issued = s.issued := rfl
@[simp] theorem State.setV_refCount (tid n : Nat) (x : W32) : (s.setV tid n x).refCount = s.refCount := rfl
@[simp] theorem State.setV_coreCycle (tid n : Nat) (x : W32) : (s.setV tid n x).coreCycle = s.coreCycle := rfl
@[simp] theorem State.setV_traceSel (tid n : Nat) (x : W32) : (s.setV tid n x).traceSel = s.traceSel := rfl
@[simp] theorem State.setV_stamp (tid n : Nat) (x : W32) : (s.setV tid n x).stamp = s.stamp := rfl
@[simp] theorem State.setV_agenda (tid n : Nat) (x : W32) : (s.setV tid n x).agenda = s.agenda := rfl
@[simp] theorem State.setV_cur (tid n : Nat) (x : W32) : (s.setV tid n x).cur = s.cur := rfl

/-! ## State.setU -/

@[simp] theorem State.setU_pkg (gid n : Nat) (x : W64) : (s.setU gid n x).pkg = s.pkg := rfl
@[simp] theorem State.setU_mem (gid n : Nat) (x : W64) : (s.setU gid n x).mem = s.mem := rfl
@[simp] theorem State.setU_opbuf (gid n : Nat) (x : W64) : (s.setU gid n x).opbuf = s.opbuf := rfl
@[simp] theorem State.setU_poison (gid n : Nat) (x : W64) : (s.setU gid n x).poison = s.poison := rfl
@[simp] theorem State.setU_fullUnits (gid n : Nat) (x : W64) : (s.setU gid n x).fullUnits = s.fullUnits := rfl
@[simp] theorem State.setU_pages (gid n : Nat) (x : W64) : (s.setU gid n x).pages = s.pages := rfl
@[simp] theorem State.setU_tables (gid n : Nat) (x : W64) : (s.setU gid n x).tables = s.tables := rfl
@[simp] theorem State.setU_own (gid n : Nat) (x : W64) : (s.setU gid n x).own = s.own := rfl
@[simp] theorem State.setU_clock (gid n : Nat) (x : W64) : (s.setU gid n x).clock = s.clock := rfl
@[simp] theorem State.setU_slots (gid n : Nat) (x : W64) : (s.setU gid n x).slots = s.slots := rfl
@[simp] theorem State.setU_nextSlot (gid n : Nat) (x : W64) : (s.setU gid n x).nextSlot = s.nextSlot := rfl
@[simp] theorem State.setU_pageWaits (gid n : Nat) (x : W64) : (s.setU gid n x).pageWaits = s.pageWaits := rfl
@[simp] theorem State.setU_pageMore (gid n : Nat) (x : W64) : (s.setU gid n x).pageMore = s.pageMore := rfl
@[simp] theorem State.setU_parts (gid n : Nat) (x : W64) : (s.setU gid n x).parts = s.parts := rfl
@[simp] theorem State.setU_queues (gid n : Nat) (x : W64) : (s.setU gid n x).queues = s.queues := rfl
@[simp] theorem State.setU_launches (gid n : Nat) (x : W64) : (s.setU gid n x).launches = s.launches := rfl
@[simp] theorem State.setU_flues (gid n : Nat) (x : W64) : (s.setU gid n x).flues = s.flues := rfl
@[simp] theorem State.setU_slices (gid n : Nat) (x : W64) : (s.setU gid n x).slices = s.slices := rfl
@[simp] theorem State.setU_grants (gid n : Nat) (x : W64) : (s.setU gid n x).grants = s.grants := rfl
@[simp] theorem State.setU_groups (gid n : Nat) (x : W64) : (s.setU gid n x).groups = s.groups := rfl
@[simp] theorem State.setU_threads (gid n : Nat) (x : W64) : (s.setU gid n x).threads = s.threads := rfl
@[simp] theorem State.setU_grates (gid n : Nat) (x : W64) : (s.setU gid n x).grates = s.grates := rfl
@[simp] theorem State.setU_vreg (gid n : Nat) (x : W64) : (s.setU gid n x).vreg = s.vreg := rfl
@[simp] theorem State.setU_preg (gid n : Nat) (x : W64) : (s.setU gid n x).preg = s.preg := rfl
@[simp] theorem State.setU_ureg (gid n : Nat) (x : W64) : (s.setU gid n x).ureg = s.ureg.putZ 0 (gid * 64 + n) x := rfl
@[simp] theorem State.setU_treg (gid n : Nat) (x : W64) : (s.setU gid n x).treg = s.treg := rfl
@[simp] theorem State.setU_pinreg (gid n : Nat) (x : W64) : (s.setU gid n x).pinreg = s.pinreg := rfl
@[simp] theorem State.setU_pinDir (gid n : Nat) (x : W64) : (s.setU gid n x).pinDir = s.pinDir := rfl
@[simp] theorem State.setU_accs (gid n : Nat) (x : W64) : (s.setU gid n x).accs = s.accs := rfl
@[simp] theorem State.setU_planesA (gid n : Nat) (x : W64) : (s.setU gid n x).planesA = s.planesA := rfl
@[simp] theorem State.setU_planesS (gid n : Nat) (x : W64) : (s.setU gid n x).planesS = s.planesS := rfl
@[simp] theorem State.setU_fills (gid n : Nat) (x : W64) : (s.setU gid n x).fills = s.fills := rfl
@[simp] theorem State.setU_stores (gid n : Nat) (x : W64) : (s.setU gid n x).stores = s.stores := rfl
@[simp] theorem State.setU_colls (gid n : Nat) (x : W64) : (s.setU gid n x).colls = s.colls := rfl
@[simp] theorem State.setU_tloads (gid n : Nat) (x : W64) : (s.setU gid n x).tloads = s.tloads := rfl
@[simp] theorem State.setU_matq (gid n : Nat) (x : W64) : (s.setU gid n x).matq = s.matq := rfl
@[simp] theorem State.setU_searches (gid n : Nat) (x : W64) : (s.setU gid n x).searches = s.searches := rfl
@[simp] theorem State.setU_sigrds (gid n : Nat) (x : W64) : (s.setU gid n x).sigrds = s.sigrds := rfl
@[simp] theorem State.setU_stops (gid n : Nat) (x : W64) : (s.setU gid n x).stops = s.stops := rfl
@[simp] theorem State.setU_bars (gid n : Nat) (x : W64) : (s.setU gid n x).bars = s.bars := rfl
@[simp] theorem State.setU_ctrs (gid n : Nat) (x : W64) : (s.setU gid n x).ctrs = s.ctrs := rfl
@[simp] theorem State.setU_lcb (gid n : Nat) (x : W64) : (s.setU gid n x).lcb = s.lcb := rfl
@[simp] theorem State.setU_issued (gid n : Nat) (x : W64) : (s.setU gid n x).issued = s.issued := rfl
@[simp] theorem State.setU_refCount (gid n : Nat) (x : W64) : (s.setU gid n x).refCount = s.refCount := rfl
@[simp] theorem State.setU_coreCycle (gid n : Nat) (x : W64) : (s.setU gid n x).coreCycle = s.coreCycle := rfl
@[simp] theorem State.setU_traceSel (gid n : Nat) (x : W64) : (s.setU gid n x).traceSel = s.traceSel := rfl
@[simp] theorem State.setU_stamp (gid n : Nat) (x : W64) : (s.setU gid n x).stamp = s.stamp := rfl
@[simp] theorem State.setU_agenda (gid n : Nat) (x : W64) : (s.setU gid n x).agenda = s.agenda := rfl
@[simp] theorem State.setU_cur (gid n : Nat) (x : W64) : (s.setU gid n x).cur = s.cur := rfl

/-! ## State.setP -/

@[simp] theorem State.setP_pkg (tid n : Nat) (x : Byte) : (s.setP tid n x).pkg = s.pkg := by unfold State.setP; split <;> rfl
@[simp] theorem State.setP_mem (tid n : Nat) (x : Byte) : (s.setP tid n x).mem = s.mem := by unfold State.setP; split <;> rfl
@[simp] theorem State.setP_opbuf (tid n : Nat) (x : Byte) : (s.setP tid n x).opbuf = s.opbuf := by unfold State.setP; split <;> rfl
@[simp] theorem State.setP_poison (tid n : Nat) (x : Byte) : (s.setP tid n x).poison = s.poison := by unfold State.setP; split <;> rfl
@[simp] theorem State.setP_fullUnits (tid n : Nat) (x : Byte) : (s.setP tid n x).fullUnits = s.fullUnits := by unfold State.setP; split <;> rfl
@[simp] theorem State.setP_pages (tid n : Nat) (x : Byte) : (s.setP tid n x).pages = s.pages := by unfold State.setP; split <;> rfl
@[simp] theorem State.setP_tables (tid n : Nat) (x : Byte) : (s.setP tid n x).tables = s.tables := by unfold State.setP; split <;> rfl
@[simp] theorem State.setP_own (tid n : Nat) (x : Byte) : (s.setP tid n x).own = s.own := by unfold State.setP; split <;> rfl
@[simp] theorem State.setP_clock (tid n : Nat) (x : Byte) : (s.setP tid n x).clock = s.clock := by unfold State.setP; split <;> rfl
@[simp] theorem State.setP_slots (tid n : Nat) (x : Byte) : (s.setP tid n x).slots = s.slots := by unfold State.setP; split <;> rfl
@[simp] theorem State.setP_nextSlot (tid n : Nat) (x : Byte) : (s.setP tid n x).nextSlot = s.nextSlot := by unfold State.setP; split <;> rfl
@[simp] theorem State.setP_pageWaits (tid n : Nat) (x : Byte) : (s.setP tid n x).pageWaits = s.pageWaits := by unfold State.setP; split <;> rfl
@[simp] theorem State.setP_pageMore (tid n : Nat) (x : Byte) : (s.setP tid n x).pageMore = s.pageMore := by unfold State.setP; split <;> rfl
@[simp] theorem State.setP_parts (tid n : Nat) (x : Byte) : (s.setP tid n x).parts = s.parts := by unfold State.setP; split <;> rfl
@[simp] theorem State.setP_queues (tid n : Nat) (x : Byte) : (s.setP tid n x).queues = s.queues := by unfold State.setP; split <;> rfl
@[simp] theorem State.setP_launches (tid n : Nat) (x : Byte) : (s.setP tid n x).launches = s.launches := by unfold State.setP; split <;> rfl
@[simp] theorem State.setP_flues (tid n : Nat) (x : Byte) : (s.setP tid n x).flues = s.flues := by unfold State.setP; split <;> rfl
@[simp] theorem State.setP_slices (tid n : Nat) (x : Byte) : (s.setP tid n x).slices = s.slices := by unfold State.setP; split <;> rfl
@[simp] theorem State.setP_grants (tid n : Nat) (x : Byte) : (s.setP tid n x).grants = s.grants := by unfold State.setP; split <;> rfl
@[simp] theorem State.setP_groups (tid n : Nat) (x : Byte) : (s.setP tid n x).groups = s.groups := by unfold State.setP; split <;> rfl
@[simp] theorem State.setP_threads (tid n : Nat) (x : Byte) : (s.setP tid n x).threads = s.threads := by unfold State.setP; split <;> rfl
@[simp] theorem State.setP_grates (tid n : Nat) (x : Byte) : (s.setP tid n x).grates = s.grates := by unfold State.setP; split <;> rfl
@[simp] theorem State.setP_vreg (tid n : Nat) (x : Byte) : (s.setP tid n x).vreg = s.vreg := by unfold State.setP; split <;> rfl
@[simp] theorem State.setP_preg (tid n : Nat) (x : Byte) : (s.setP tid n x).preg = if n = 0 then s.preg else s.preg.putZ 0 (tid * 16 + n) x := by unfold State.setP; split <;> rfl
@[simp] theorem State.setP_ureg (tid n : Nat) (x : Byte) : (s.setP tid n x).ureg = s.ureg := by unfold State.setP; split <;> rfl
@[simp] theorem State.setP_treg (tid n : Nat) (x : Byte) : (s.setP tid n x).treg = s.treg := by unfold State.setP; split <;> rfl
@[simp] theorem State.setP_pinreg (tid n : Nat) (x : Byte) : (s.setP tid n x).pinreg = s.pinreg := by unfold State.setP; split <;> rfl
@[simp] theorem State.setP_pinDir (tid n : Nat) (x : Byte) : (s.setP tid n x).pinDir = s.pinDir := by unfold State.setP; split <;> rfl
@[simp] theorem State.setP_accs (tid n : Nat) (x : Byte) : (s.setP tid n x).accs = s.accs := by unfold State.setP; split <;> rfl
@[simp] theorem State.setP_planesA (tid n : Nat) (x : Byte) : (s.setP tid n x).planesA = s.planesA := by unfold State.setP; split <;> rfl
@[simp] theorem State.setP_planesS (tid n : Nat) (x : Byte) : (s.setP tid n x).planesS = s.planesS := by unfold State.setP; split <;> rfl
@[simp] theorem State.setP_fills (tid n : Nat) (x : Byte) : (s.setP tid n x).fills = s.fills := by unfold State.setP; split <;> rfl
@[simp] theorem State.setP_stores (tid n : Nat) (x : Byte) : (s.setP tid n x).stores = s.stores := by unfold State.setP; split <;> rfl
@[simp] theorem State.setP_colls (tid n : Nat) (x : Byte) : (s.setP tid n x).colls = s.colls := by unfold State.setP; split <;> rfl
@[simp] theorem State.setP_tloads (tid n : Nat) (x : Byte) : (s.setP tid n x).tloads = s.tloads := by unfold State.setP; split <;> rfl
@[simp] theorem State.setP_matq (tid n : Nat) (x : Byte) : (s.setP tid n x).matq = s.matq := by unfold State.setP; split <;> rfl
@[simp] theorem State.setP_searches (tid n : Nat) (x : Byte) : (s.setP tid n x).searches = s.searches := by unfold State.setP; split <;> rfl
@[simp] theorem State.setP_sigrds (tid n : Nat) (x : Byte) : (s.setP tid n x).sigrds = s.sigrds := by unfold State.setP; split <;> rfl
@[simp] theorem State.setP_stops (tid n : Nat) (x : Byte) : (s.setP tid n x).stops = s.stops := by unfold State.setP; split <;> rfl
@[simp] theorem State.setP_bars (tid n : Nat) (x : Byte) : (s.setP tid n x).bars = s.bars := by unfold State.setP; split <;> rfl
@[simp] theorem State.setP_ctrs (tid n : Nat) (x : Byte) : (s.setP tid n x).ctrs = s.ctrs := by unfold State.setP; split <;> rfl
@[simp] theorem State.setP_lcb (tid n : Nat) (x : Byte) : (s.setP tid n x).lcb = s.lcb := by unfold State.setP; split <;> rfl
@[simp] theorem State.setP_issued (tid n : Nat) (x : Byte) : (s.setP tid n x).issued = s.issued := by unfold State.setP; split <;> rfl
@[simp] theorem State.setP_refCount (tid n : Nat) (x : Byte) : (s.setP tid n x).refCount = s.refCount := by unfold State.setP; split <;> rfl
@[simp] theorem State.setP_coreCycle (tid n : Nat) (x : Byte) : (s.setP tid n x).coreCycle = s.coreCycle := by unfold State.setP; split <;> rfl
@[simp] theorem State.setP_traceSel (tid n : Nat) (x : Byte) : (s.setP tid n x).traceSel = s.traceSel := by unfold State.setP; split <;> rfl
@[simp] theorem State.setP_stamp (tid n : Nat) (x : Byte) : (s.setP tid n x).stamp = s.stamp := by unfold State.setP; split <;> rfl
@[simp] theorem State.setP_agenda (tid n : Nat) (x : Byte) : (s.setP tid n x).agenda = s.agenda := by unfold State.setP; split <;> rfl
@[simp] theorem State.setP_cur (tid n : Nat) (x : Byte) : (s.setP tid n x).cur = s.cur := by unfold State.setP; split <;> rfl

/-! ## State.setT -/

@[simp] theorem State.setT_pkg (gid n : Nat) (x : BitVec 256) : (s.setT gid n x).pkg = s.pkg := rfl
@[simp] theorem State.setT_mem (gid n : Nat) (x : BitVec 256) : (s.setT gid n x).mem = s.mem := rfl
@[simp] theorem State.setT_opbuf (gid n : Nat) (x : BitVec 256) : (s.setT gid n x).opbuf = s.opbuf := rfl
@[simp] theorem State.setT_poison (gid n : Nat) (x : BitVec 256) : (s.setT gid n x).poison = s.poison := rfl
@[simp] theorem State.setT_fullUnits (gid n : Nat) (x : BitVec 256) : (s.setT gid n x).fullUnits = s.fullUnits := rfl
@[simp] theorem State.setT_pages (gid n : Nat) (x : BitVec 256) : (s.setT gid n x).pages = s.pages := rfl
@[simp] theorem State.setT_tables (gid n : Nat) (x : BitVec 256) : (s.setT gid n x).tables = s.tables := rfl
@[simp] theorem State.setT_own (gid n : Nat) (x : BitVec 256) : (s.setT gid n x).own = s.own := rfl
@[simp] theorem State.setT_clock (gid n : Nat) (x : BitVec 256) : (s.setT gid n x).clock = s.clock := rfl
@[simp] theorem State.setT_slots (gid n : Nat) (x : BitVec 256) : (s.setT gid n x).slots = s.slots := rfl
@[simp] theorem State.setT_nextSlot (gid n : Nat) (x : BitVec 256) : (s.setT gid n x).nextSlot = s.nextSlot := rfl
@[simp] theorem State.setT_pageWaits (gid n : Nat) (x : BitVec 256) : (s.setT gid n x).pageWaits = s.pageWaits := rfl
@[simp] theorem State.setT_pageMore (gid n : Nat) (x : BitVec 256) : (s.setT gid n x).pageMore = s.pageMore := rfl
@[simp] theorem State.setT_parts (gid n : Nat) (x : BitVec 256) : (s.setT gid n x).parts = s.parts := rfl
@[simp] theorem State.setT_queues (gid n : Nat) (x : BitVec 256) : (s.setT gid n x).queues = s.queues := rfl
@[simp] theorem State.setT_launches (gid n : Nat) (x : BitVec 256) : (s.setT gid n x).launches = s.launches := rfl
@[simp] theorem State.setT_flues (gid n : Nat) (x : BitVec 256) : (s.setT gid n x).flues = s.flues := rfl
@[simp] theorem State.setT_slices (gid n : Nat) (x : BitVec 256) : (s.setT gid n x).slices = s.slices := rfl
@[simp] theorem State.setT_grants (gid n : Nat) (x : BitVec 256) : (s.setT gid n x).grants = s.grants := rfl
@[simp] theorem State.setT_groups (gid n : Nat) (x : BitVec 256) : (s.setT gid n x).groups = s.groups := rfl
@[simp] theorem State.setT_threads (gid n : Nat) (x : BitVec 256) : (s.setT gid n x).threads = s.threads := rfl
@[simp] theorem State.setT_grates (gid n : Nat) (x : BitVec 256) : (s.setT gid n x).grates = s.grates := rfl
@[simp] theorem State.setT_vreg (gid n : Nat) (x : BitVec 256) : (s.setT gid n x).vreg = s.vreg := rfl
@[simp] theorem State.setT_preg (gid n : Nat) (x : BitVec 256) : (s.setT gid n x).preg = s.preg := rfl
@[simp] theorem State.setT_ureg (gid n : Nat) (x : BitVec 256) : (s.setT gid n x).ureg = s.ureg := rfl
@[simp] theorem State.setT_treg (gid n : Nat) (x : BitVec 256) : (s.setT gid n x).treg = s.treg.putZ 0 (gid * 16 + n) x := rfl
@[simp] theorem State.setT_pinreg (gid n : Nat) (x : BitVec 256) : (s.setT gid n x).pinreg = s.pinreg := rfl
@[simp] theorem State.setT_pinDir (gid n : Nat) (x : BitVec 256) : (s.setT gid n x).pinDir = s.pinDir := rfl
@[simp] theorem State.setT_accs (gid n : Nat) (x : BitVec 256) : (s.setT gid n x).accs = s.accs := rfl
@[simp] theorem State.setT_planesA (gid n : Nat) (x : BitVec 256) : (s.setT gid n x).planesA = s.planesA := rfl
@[simp] theorem State.setT_planesS (gid n : Nat) (x : BitVec 256) : (s.setT gid n x).planesS = s.planesS := rfl
@[simp] theorem State.setT_fills (gid n : Nat) (x : BitVec 256) : (s.setT gid n x).fills = s.fills := rfl
@[simp] theorem State.setT_stores (gid n : Nat) (x : BitVec 256) : (s.setT gid n x).stores = s.stores := rfl
@[simp] theorem State.setT_colls (gid n : Nat) (x : BitVec 256) : (s.setT gid n x).colls = s.colls := rfl
@[simp] theorem State.setT_tloads (gid n : Nat) (x : BitVec 256) : (s.setT gid n x).tloads = s.tloads := rfl
@[simp] theorem State.setT_matq (gid n : Nat) (x : BitVec 256) : (s.setT gid n x).matq = s.matq := rfl
@[simp] theorem State.setT_searches (gid n : Nat) (x : BitVec 256) : (s.setT gid n x).searches = s.searches := rfl
@[simp] theorem State.setT_sigrds (gid n : Nat) (x : BitVec 256) : (s.setT gid n x).sigrds = s.sigrds := rfl
@[simp] theorem State.setT_stops (gid n : Nat) (x : BitVec 256) : (s.setT gid n x).stops = s.stops := rfl
@[simp] theorem State.setT_bars (gid n : Nat) (x : BitVec 256) : (s.setT gid n x).bars = s.bars := rfl
@[simp] theorem State.setT_ctrs (gid n : Nat) (x : BitVec 256) : (s.setT gid n x).ctrs = s.ctrs := rfl
@[simp] theorem State.setT_lcb (gid n : Nat) (x : BitVec 256) : (s.setT gid n x).lcb = s.lcb := rfl
@[simp] theorem State.setT_issued (gid n : Nat) (x : BitVec 256) : (s.setT gid n x).issued = s.issued := rfl
@[simp] theorem State.setT_refCount (gid n : Nat) (x : BitVec 256) : (s.setT gid n x).refCount = s.refCount := rfl
@[simp] theorem State.setT_coreCycle (gid n : Nat) (x : BitVec 256) : (s.setT gid n x).coreCycle = s.coreCycle := rfl
@[simp] theorem State.setT_traceSel (gid n : Nat) (x : BitVec 256) : (s.setT gid n x).traceSel = s.traceSel := rfl
@[simp] theorem State.setT_stamp (gid n : Nat) (x : BitVec 256) : (s.setT gid n x).stamp = s.stamp := rfl
@[simp] theorem State.setT_agenda (gid n : Nat) (x : BitVec 256) : (s.setT gid n x).agenda = s.agenda := rfl
@[simp] theorem State.setT_cur (gid n : Nat) (x : BitVec 256) : (s.setT gid n x).cur = s.cur := rfl

/-! ## State.setPin -/

@[simp] theorem State.setPin_pkg (gid n : Nat) (x : W64) : (s.setPin gid n x).pkg = s.pkg := rfl
@[simp] theorem State.setPin_mem (gid n : Nat) (x : W64) : (s.setPin gid n x).mem = s.mem := rfl
@[simp] theorem State.setPin_opbuf (gid n : Nat) (x : W64) : (s.setPin gid n x).opbuf = s.opbuf := rfl
@[simp] theorem State.setPin_poison (gid n : Nat) (x : W64) : (s.setPin gid n x).poison = s.poison := rfl
@[simp] theorem State.setPin_fullUnits (gid n : Nat) (x : W64) : (s.setPin gid n x).fullUnits = s.fullUnits := rfl
@[simp] theorem State.setPin_pages (gid n : Nat) (x : W64) : (s.setPin gid n x).pages = s.pages := rfl
@[simp] theorem State.setPin_tables (gid n : Nat) (x : W64) : (s.setPin gid n x).tables = s.tables := rfl
@[simp] theorem State.setPin_own (gid n : Nat) (x : W64) : (s.setPin gid n x).own = s.own := rfl
@[simp] theorem State.setPin_clock (gid n : Nat) (x : W64) : (s.setPin gid n x).clock = s.clock := rfl
@[simp] theorem State.setPin_slots (gid n : Nat) (x : W64) : (s.setPin gid n x).slots = s.slots := rfl
@[simp] theorem State.setPin_nextSlot (gid n : Nat) (x : W64) : (s.setPin gid n x).nextSlot = s.nextSlot := rfl
@[simp] theorem State.setPin_pageWaits (gid n : Nat) (x : W64) : (s.setPin gid n x).pageWaits = s.pageWaits := rfl
@[simp] theorem State.setPin_pageMore (gid n : Nat) (x : W64) : (s.setPin gid n x).pageMore = s.pageMore := rfl
@[simp] theorem State.setPin_parts (gid n : Nat) (x : W64) : (s.setPin gid n x).parts = s.parts := rfl
@[simp] theorem State.setPin_queues (gid n : Nat) (x : W64) : (s.setPin gid n x).queues = s.queues := rfl
@[simp] theorem State.setPin_launches (gid n : Nat) (x : W64) : (s.setPin gid n x).launches = s.launches := rfl
@[simp] theorem State.setPin_flues (gid n : Nat) (x : W64) : (s.setPin gid n x).flues = s.flues := rfl
@[simp] theorem State.setPin_slices (gid n : Nat) (x : W64) : (s.setPin gid n x).slices = s.slices := rfl
@[simp] theorem State.setPin_grants (gid n : Nat) (x : W64) : (s.setPin gid n x).grants = s.grants := rfl
@[simp] theorem State.setPin_groups (gid n : Nat) (x : W64) : (s.setPin gid n x).groups = s.groups := rfl
@[simp] theorem State.setPin_threads (gid n : Nat) (x : W64) : (s.setPin gid n x).threads = s.threads := rfl
@[simp] theorem State.setPin_grates (gid n : Nat) (x : W64) : (s.setPin gid n x).grates = s.grates := rfl
@[simp] theorem State.setPin_vreg (gid n : Nat) (x : W64) : (s.setPin gid n x).vreg = s.vreg := rfl
@[simp] theorem State.setPin_preg (gid n : Nat) (x : W64) : (s.setPin gid n x).preg = s.preg := rfl
@[simp] theorem State.setPin_ureg (gid n : Nat) (x : W64) : (s.setPin gid n x).ureg = s.ureg := rfl
@[simp] theorem State.setPin_treg (gid n : Nat) (x : W64) : (s.setPin gid n x).treg = s.treg := rfl
@[simp] theorem State.setPin_pinreg (gid n : Nat) (x : W64) : (s.setPin gid n x).pinreg = s.pinreg.putZ 0 (gid * 8 + n) x := rfl
@[simp] theorem State.setPin_pinDir (gid n : Nat) (x : W64) : (s.setPin gid n x).pinDir = s.pinDir := rfl
@[simp] theorem State.setPin_accs (gid n : Nat) (x : W64) : (s.setPin gid n x).accs = s.accs := rfl
@[simp] theorem State.setPin_planesA (gid n : Nat) (x : W64) : (s.setPin gid n x).planesA = s.planesA := rfl
@[simp] theorem State.setPin_planesS (gid n : Nat) (x : W64) : (s.setPin gid n x).planesS = s.planesS := rfl
@[simp] theorem State.setPin_fills (gid n : Nat) (x : W64) : (s.setPin gid n x).fills = s.fills := rfl
@[simp] theorem State.setPin_stores (gid n : Nat) (x : W64) : (s.setPin gid n x).stores = s.stores := rfl
@[simp] theorem State.setPin_colls (gid n : Nat) (x : W64) : (s.setPin gid n x).colls = s.colls := rfl
@[simp] theorem State.setPin_tloads (gid n : Nat) (x : W64) : (s.setPin gid n x).tloads = s.tloads := rfl
@[simp] theorem State.setPin_matq (gid n : Nat) (x : W64) : (s.setPin gid n x).matq = s.matq := rfl
@[simp] theorem State.setPin_searches (gid n : Nat) (x : W64) : (s.setPin gid n x).searches = s.searches := rfl
@[simp] theorem State.setPin_sigrds (gid n : Nat) (x : W64) : (s.setPin gid n x).sigrds = s.sigrds := rfl
@[simp] theorem State.setPin_stops (gid n : Nat) (x : W64) : (s.setPin gid n x).stops = s.stops := rfl
@[simp] theorem State.setPin_bars (gid n : Nat) (x : W64) : (s.setPin gid n x).bars = s.bars := rfl
@[simp] theorem State.setPin_ctrs (gid n : Nat) (x : W64) : (s.setPin gid n x).ctrs = s.ctrs := rfl
@[simp] theorem State.setPin_lcb (gid n : Nat) (x : W64) : (s.setPin gid n x).lcb = s.lcb := rfl
@[simp] theorem State.setPin_issued (gid n : Nat) (x : W64) : (s.setPin gid n x).issued = s.issued := rfl
@[simp] theorem State.setPin_refCount (gid n : Nat) (x : W64) : (s.setPin gid n x).refCount = s.refCount := rfl
@[simp] theorem State.setPin_coreCycle (gid n : Nat) (x : W64) : (s.setPin gid n x).coreCycle = s.coreCycle := rfl
@[simp] theorem State.setPin_traceSel (gid n : Nat) (x : W64) : (s.setPin gid n x).traceSel = s.traceSel := rfl
@[simp] theorem State.setPin_stamp (gid n : Nat) (x : W64) : (s.setPin gid n x).stamp = s.stamp := rfl
@[simp] theorem State.setPin_agenda (gid n : Nat) (x : W64) : (s.setPin gid n x).agenda = s.agenda := rfl
@[simp] theorem State.setPin_cur (gid n : Nat) (x : W64) : (s.setPin gid n x).cur = s.cur := rfl

/-! ## State.setAcc -/

@[simp] theorem State.setAcc_pkg (gid n : Nat) (x : Acc) : (s.setAcc gid n x).pkg = s.pkg := rfl
@[simp] theorem State.setAcc_mem (gid n : Nat) (x : Acc) : (s.setAcc gid n x).mem = s.mem := rfl
@[simp] theorem State.setAcc_opbuf (gid n : Nat) (x : Acc) : (s.setAcc gid n x).opbuf = s.opbuf := rfl
@[simp] theorem State.setAcc_poison (gid n : Nat) (x : Acc) : (s.setAcc gid n x).poison = s.poison := rfl
@[simp] theorem State.setAcc_fullUnits (gid n : Nat) (x : Acc) : (s.setAcc gid n x).fullUnits = s.fullUnits := rfl
@[simp] theorem State.setAcc_pages (gid n : Nat) (x : Acc) : (s.setAcc gid n x).pages = s.pages := rfl
@[simp] theorem State.setAcc_tables (gid n : Nat) (x : Acc) : (s.setAcc gid n x).tables = s.tables := rfl
@[simp] theorem State.setAcc_own (gid n : Nat) (x : Acc) : (s.setAcc gid n x).own = s.own := rfl
@[simp] theorem State.setAcc_clock (gid n : Nat) (x : Acc) : (s.setAcc gid n x).clock = s.clock := rfl
@[simp] theorem State.setAcc_slots (gid n : Nat) (x : Acc) : (s.setAcc gid n x).slots = s.slots := rfl
@[simp] theorem State.setAcc_nextSlot (gid n : Nat) (x : Acc) : (s.setAcc gid n x).nextSlot = s.nextSlot := rfl
@[simp] theorem State.setAcc_pageWaits (gid n : Nat) (x : Acc) : (s.setAcc gid n x).pageWaits = s.pageWaits := rfl
@[simp] theorem State.setAcc_pageMore (gid n : Nat) (x : Acc) : (s.setAcc gid n x).pageMore = s.pageMore := rfl
@[simp] theorem State.setAcc_parts (gid n : Nat) (x : Acc) : (s.setAcc gid n x).parts = s.parts := rfl
@[simp] theorem State.setAcc_queues (gid n : Nat) (x : Acc) : (s.setAcc gid n x).queues = s.queues := rfl
@[simp] theorem State.setAcc_launches (gid n : Nat) (x : Acc) : (s.setAcc gid n x).launches = s.launches := rfl
@[simp] theorem State.setAcc_flues (gid n : Nat) (x : Acc) : (s.setAcc gid n x).flues = s.flues := rfl
@[simp] theorem State.setAcc_slices (gid n : Nat) (x : Acc) : (s.setAcc gid n x).slices = s.slices := rfl
@[simp] theorem State.setAcc_grants (gid n : Nat) (x : Acc) : (s.setAcc gid n x).grants = s.grants := rfl
@[simp] theorem State.setAcc_groups (gid n : Nat) (x : Acc) : (s.setAcc gid n x).groups = s.groups := rfl
@[simp] theorem State.setAcc_threads (gid n : Nat) (x : Acc) : (s.setAcc gid n x).threads = s.threads := rfl
@[simp] theorem State.setAcc_grates (gid n : Nat) (x : Acc) : (s.setAcc gid n x).grates = s.grates := rfl
@[simp] theorem State.setAcc_vreg (gid n : Nat) (x : Acc) : (s.setAcc gid n x).vreg = s.vreg := rfl
@[simp] theorem State.setAcc_preg (gid n : Nat) (x : Acc) : (s.setAcc gid n x).preg = s.preg := rfl
@[simp] theorem State.setAcc_ureg (gid n : Nat) (x : Acc) : (s.setAcc gid n x).ureg = s.ureg := rfl
@[simp] theorem State.setAcc_treg (gid n : Nat) (x : Acc) : (s.setAcc gid n x).treg = s.treg := rfl
@[simp] theorem State.setAcc_pinreg (gid n : Nat) (x : Acc) : (s.setAcc gid n x).pinreg = s.pinreg := rfl
@[simp] theorem State.setAcc_pinDir (gid n : Nat) (x : Acc) : (s.setAcc gid n x).pinDir = s.pinDir := rfl
@[simp] theorem State.setAcc_accs (gid n : Nat) (x : Acc) : (s.setAcc gid n x).accs = Tab.putZ {} s.accs (gid * 8 + n) x := rfl
@[simp] theorem State.setAcc_planesA (gid n : Nat) (x : Acc) : (s.setAcc gid n x).planesA = s.planesA := rfl
@[simp] theorem State.setAcc_planesS (gid n : Nat) (x : Acc) : (s.setAcc gid n x).planesS = s.planesS := rfl
@[simp] theorem State.setAcc_fills (gid n : Nat) (x : Acc) : (s.setAcc gid n x).fills = s.fills := rfl
@[simp] theorem State.setAcc_stores (gid n : Nat) (x : Acc) : (s.setAcc gid n x).stores = s.stores := rfl
@[simp] theorem State.setAcc_colls (gid n : Nat) (x : Acc) : (s.setAcc gid n x).colls = s.colls := rfl
@[simp] theorem State.setAcc_tloads (gid n : Nat) (x : Acc) : (s.setAcc gid n x).tloads = s.tloads := rfl
@[simp] theorem State.setAcc_matq (gid n : Nat) (x : Acc) : (s.setAcc gid n x).matq = s.matq := rfl
@[simp] theorem State.setAcc_searches (gid n : Nat) (x : Acc) : (s.setAcc gid n x).searches = s.searches := rfl
@[simp] theorem State.setAcc_sigrds (gid n : Nat) (x : Acc) : (s.setAcc gid n x).sigrds = s.sigrds := rfl
@[simp] theorem State.setAcc_stops (gid n : Nat) (x : Acc) : (s.setAcc gid n x).stops = s.stops := rfl
@[simp] theorem State.setAcc_bars (gid n : Nat) (x : Acc) : (s.setAcc gid n x).bars = s.bars := rfl
@[simp] theorem State.setAcc_ctrs (gid n : Nat) (x : Acc) : (s.setAcc gid n x).ctrs = s.ctrs := rfl
@[simp] theorem State.setAcc_lcb (gid n : Nat) (x : Acc) : (s.setAcc gid n x).lcb = s.lcb := rfl
@[simp] theorem State.setAcc_issued (gid n : Nat) (x : Acc) : (s.setAcc gid n x).issued = s.issued := rfl
@[simp] theorem State.setAcc_refCount (gid n : Nat) (x : Acc) : (s.setAcc gid n x).refCount = s.refCount := rfl
@[simp] theorem State.setAcc_coreCycle (gid n : Nat) (x : Acc) : (s.setAcc gid n x).coreCycle = s.coreCycle := rfl
@[simp] theorem State.setAcc_traceSel (gid n : Nat) (x : Acc) : (s.setAcc gid n x).traceSel = s.traceSel := rfl
@[simp] theorem State.setAcc_stamp (gid n : Nat) (x : Acc) : (s.setAcc gid n x).stamp = s.stamp := rfl
@[simp] theorem State.setAcc_agenda (gid n : Nat) (x : Acc) : (s.setAcc gid n x).agenda = s.agenda := rfl
@[simp] theorem State.setAcc_cur (gid n : Nat) (x : Acc) : (s.setAcc gid n x).cur = s.cur := rfl

/-! ## State.setFrame -/

@[simp] theorem State.setFrame_pkg (f : Nat) (o : Own) : (s.setFrame f o).pkg = s.pkg := rfl
@[simp] theorem State.setFrame_mem (f : Nat) (o : Own) : (s.setFrame f o).mem = s.mem := rfl
@[simp] theorem State.setFrame_opbuf (f : Nat) (o : Own) : (s.setFrame f o).opbuf = s.opbuf := rfl
@[simp] theorem State.setFrame_poison (f : Nat) (o : Own) : (s.setFrame f o).poison = s.poison := rfl
@[simp] theorem State.setFrame_fullUnits (f : Nat) (o : Own) : (s.setFrame f o).fullUnits = s.fullUnits := rfl
@[simp] theorem State.setFrame_pages (f : Nat) (o : Own) : (s.setFrame f o).pages = s.pages := rfl
@[simp] theorem State.setFrame_tables (f : Nat) (o : Own) : (s.setFrame f o).tables = s.tables := rfl
@[simp] theorem State.setFrame_own (f : Nat) (o : Own) : (s.setFrame f o).own = Tab.putZ {} s.own f o := rfl
@[simp] theorem State.setFrame_clock (f : Nat) (o : Own) : (s.setFrame f o).clock = s.clock := rfl
@[simp] theorem State.setFrame_slots (f : Nat) (o : Own) : (s.setFrame f o).slots = s.slots := rfl
@[simp] theorem State.setFrame_nextSlot (f : Nat) (o : Own) : (s.setFrame f o).nextSlot = s.nextSlot := rfl
@[simp] theorem State.setFrame_pageWaits (f : Nat) (o : Own) : (s.setFrame f o).pageWaits = s.pageWaits := rfl
@[simp] theorem State.setFrame_pageMore (f : Nat) (o : Own) : (s.setFrame f o).pageMore = s.pageMore := rfl
@[simp] theorem State.setFrame_parts (f : Nat) (o : Own) : (s.setFrame f o).parts = s.parts := rfl
@[simp] theorem State.setFrame_queues (f : Nat) (o : Own) : (s.setFrame f o).queues = s.queues := rfl
@[simp] theorem State.setFrame_launches (f : Nat) (o : Own) : (s.setFrame f o).launches = s.launches := rfl
@[simp] theorem State.setFrame_flues (f : Nat) (o : Own) : (s.setFrame f o).flues = s.flues := rfl
@[simp] theorem State.setFrame_slices (f : Nat) (o : Own) : (s.setFrame f o).slices = s.slices := rfl
@[simp] theorem State.setFrame_grants (f : Nat) (o : Own) : (s.setFrame f o).grants = s.grants := rfl
@[simp] theorem State.setFrame_groups (f : Nat) (o : Own) : (s.setFrame f o).groups = s.groups := rfl
@[simp] theorem State.setFrame_threads (f : Nat) (o : Own) : (s.setFrame f o).threads = s.threads := rfl
@[simp] theorem State.setFrame_grates (f : Nat) (o : Own) : (s.setFrame f o).grates = s.grates := rfl
@[simp] theorem State.setFrame_vreg (f : Nat) (o : Own) : (s.setFrame f o).vreg = s.vreg := rfl
@[simp] theorem State.setFrame_preg (f : Nat) (o : Own) : (s.setFrame f o).preg = s.preg := rfl
@[simp] theorem State.setFrame_ureg (f : Nat) (o : Own) : (s.setFrame f o).ureg = s.ureg := rfl
@[simp] theorem State.setFrame_treg (f : Nat) (o : Own) : (s.setFrame f o).treg = s.treg := rfl
@[simp] theorem State.setFrame_pinreg (f : Nat) (o : Own) : (s.setFrame f o).pinreg = s.pinreg := rfl
@[simp] theorem State.setFrame_pinDir (f : Nat) (o : Own) : (s.setFrame f o).pinDir = s.pinDir := rfl
@[simp] theorem State.setFrame_accs (f : Nat) (o : Own) : (s.setFrame f o).accs = s.accs := rfl
@[simp] theorem State.setFrame_planesA (f : Nat) (o : Own) : (s.setFrame f o).planesA = s.planesA := rfl
@[simp] theorem State.setFrame_planesS (f : Nat) (o : Own) : (s.setFrame f o).planesS = s.planesS := rfl
@[simp] theorem State.setFrame_fills (f : Nat) (o : Own) : (s.setFrame f o).fills = s.fills := rfl
@[simp] theorem State.setFrame_stores (f : Nat) (o : Own) : (s.setFrame f o).stores = s.stores := rfl
@[simp] theorem State.setFrame_colls (f : Nat) (o : Own) : (s.setFrame f o).colls = s.colls := rfl
@[simp] theorem State.setFrame_tloads (f : Nat) (o : Own) : (s.setFrame f o).tloads = s.tloads := rfl
@[simp] theorem State.setFrame_matq (f : Nat) (o : Own) : (s.setFrame f o).matq = s.matq := rfl
@[simp] theorem State.setFrame_searches (f : Nat) (o : Own) : (s.setFrame f o).searches = s.searches := rfl
@[simp] theorem State.setFrame_sigrds (f : Nat) (o : Own) : (s.setFrame f o).sigrds = s.sigrds := rfl
@[simp] theorem State.setFrame_stops (f : Nat) (o : Own) : (s.setFrame f o).stops = s.stops := rfl
@[simp] theorem State.setFrame_bars (f : Nat) (o : Own) : (s.setFrame f o).bars = s.bars := rfl
@[simp] theorem State.setFrame_ctrs (f : Nat) (o : Own) : (s.setFrame f o).ctrs = s.ctrs := rfl
@[simp] theorem State.setFrame_lcb (f : Nat) (o : Own) : (s.setFrame f o).lcb = s.lcb := rfl
@[simp] theorem State.setFrame_issued (f : Nat) (o : Own) : (s.setFrame f o).issued = s.issued := rfl
@[simp] theorem State.setFrame_refCount (f : Nat) (o : Own) : (s.setFrame f o).refCount = s.refCount := rfl
@[simp] theorem State.setFrame_coreCycle (f : Nat) (o : Own) : (s.setFrame f o).coreCycle = s.coreCycle := rfl
@[simp] theorem State.setFrame_traceSel (f : Nat) (o : Own) : (s.setFrame f o).traceSel = s.traceSel := rfl
@[simp] theorem State.setFrame_stamp (f : Nat) (o : Own) : (s.setFrame f o).stamp = s.stamp := rfl
@[simp] theorem State.setFrame_agenda (f : Nat) (o : Own) : (s.setFrame f o).agenda = s.agenda := rfl
@[simp] theorem State.setFrame_cur (f : Nat) (o : Own) : (s.setFrame f o).cur = s.cur := rfl

/-! ## State.setPart -/

@[simp] theorem State.setPart_pkg (p : Nat) (x : Part) : (s.setPart p x).pkg = s.pkg := rfl
@[simp] theorem State.setPart_mem (p : Nat) (x : Part) : (s.setPart p x).mem = s.mem := rfl
@[simp] theorem State.setPart_opbuf (p : Nat) (x : Part) : (s.setPart p x).opbuf = s.opbuf := rfl
@[simp] theorem State.setPart_poison (p : Nat) (x : Part) : (s.setPart p x).poison = s.poison := rfl
@[simp] theorem State.setPart_fullUnits (p : Nat) (x : Part) : (s.setPart p x).fullUnits = s.fullUnits := rfl
@[simp] theorem State.setPart_pages (p : Nat) (x : Part) : (s.setPart p x).pages = s.pages := rfl
@[simp] theorem State.setPart_tables (p : Nat) (x : Part) : (s.setPart p x).tables = s.tables := rfl
@[simp] theorem State.setPart_own (p : Nat) (x : Part) : (s.setPart p x).own = s.own := rfl
@[simp] theorem State.setPart_clock (p : Nat) (x : Part) : (s.setPart p x).clock = s.clock := rfl
@[simp] theorem State.setPart_slots (p : Nat) (x : Part) : (s.setPart p x).slots = s.slots := rfl
@[simp] theorem State.setPart_nextSlot (p : Nat) (x : Part) : (s.setPart p x).nextSlot = s.nextSlot := rfl
@[simp] theorem State.setPart_pageWaits (p : Nat) (x : Part) : (s.setPart p x).pageWaits = s.pageWaits := rfl
@[simp] theorem State.setPart_pageMore (p : Nat) (x : Part) : (s.setPart p x).pageMore = s.pageMore := rfl
@[simp] theorem State.setPart_parts (p : Nat) (x : Part) : (s.setPart p x).parts = s.parts.put p x := rfl
@[simp] theorem State.setPart_queues (p : Nat) (x : Part) : (s.setPart p x).queues = s.queues := rfl
@[simp] theorem State.setPart_launches (p : Nat) (x : Part) : (s.setPart p x).launches = s.launches := rfl
@[simp] theorem State.setPart_flues (p : Nat) (x : Part) : (s.setPart p x).flues = s.flues := rfl
@[simp] theorem State.setPart_slices (p : Nat) (x : Part) : (s.setPart p x).slices = s.slices := rfl
@[simp] theorem State.setPart_grants (p : Nat) (x : Part) : (s.setPart p x).grants = s.grants := rfl
@[simp] theorem State.setPart_groups (p : Nat) (x : Part) : (s.setPart p x).groups = s.groups := rfl
@[simp] theorem State.setPart_threads (p : Nat) (x : Part) : (s.setPart p x).threads = s.threads := rfl
@[simp] theorem State.setPart_grates (p : Nat) (x : Part) : (s.setPart p x).grates = s.grates := rfl
@[simp] theorem State.setPart_vreg (p : Nat) (x : Part) : (s.setPart p x).vreg = s.vreg := rfl
@[simp] theorem State.setPart_preg (p : Nat) (x : Part) : (s.setPart p x).preg = s.preg := rfl
@[simp] theorem State.setPart_ureg (p : Nat) (x : Part) : (s.setPart p x).ureg = s.ureg := rfl
@[simp] theorem State.setPart_treg (p : Nat) (x : Part) : (s.setPart p x).treg = s.treg := rfl
@[simp] theorem State.setPart_pinreg (p : Nat) (x : Part) : (s.setPart p x).pinreg = s.pinreg := rfl
@[simp] theorem State.setPart_pinDir (p : Nat) (x : Part) : (s.setPart p x).pinDir = s.pinDir := rfl
@[simp] theorem State.setPart_accs (p : Nat) (x : Part) : (s.setPart p x).accs = s.accs := rfl
@[simp] theorem State.setPart_planesA (p : Nat) (x : Part) : (s.setPart p x).planesA = s.planesA := rfl
@[simp] theorem State.setPart_planesS (p : Nat) (x : Part) : (s.setPart p x).planesS = s.planesS := rfl
@[simp] theorem State.setPart_fills (p : Nat) (x : Part) : (s.setPart p x).fills = s.fills := rfl
@[simp] theorem State.setPart_stores (p : Nat) (x : Part) : (s.setPart p x).stores = s.stores := rfl
@[simp] theorem State.setPart_colls (p : Nat) (x : Part) : (s.setPart p x).colls = s.colls := rfl
@[simp] theorem State.setPart_tloads (p : Nat) (x : Part) : (s.setPart p x).tloads = s.tloads := rfl
@[simp] theorem State.setPart_matq (p : Nat) (x : Part) : (s.setPart p x).matq = s.matq := rfl
@[simp] theorem State.setPart_searches (p : Nat) (x : Part) : (s.setPart p x).searches = s.searches := rfl
@[simp] theorem State.setPart_sigrds (p : Nat) (x : Part) : (s.setPart p x).sigrds = s.sigrds := rfl
@[simp] theorem State.setPart_stops (p : Nat) (x : Part) : (s.setPart p x).stops = s.stops := rfl
@[simp] theorem State.setPart_bars (p : Nat) (x : Part) : (s.setPart p x).bars = s.bars := rfl
@[simp] theorem State.setPart_ctrs (p : Nat) (x : Part) : (s.setPart p x).ctrs = s.ctrs := rfl
@[simp] theorem State.setPart_lcb (p : Nat) (x : Part) : (s.setPart p x).lcb = s.lcb := rfl
@[simp] theorem State.setPart_issued (p : Nat) (x : Part) : (s.setPart p x).issued = s.issued := rfl
@[simp] theorem State.setPart_refCount (p : Nat) (x : Part) : (s.setPart p x).refCount = s.refCount := rfl
@[simp] theorem State.setPart_coreCycle (p : Nat) (x : Part) : (s.setPart p x).coreCycle = s.coreCycle := rfl
@[simp] theorem State.setPart_traceSel (p : Nat) (x : Part) : (s.setPart p x).traceSel = s.traceSel := rfl
@[simp] theorem State.setPart_stamp (p : Nat) (x : Part) : (s.setPart p x).stamp = s.stamp := rfl
@[simp] theorem State.setPart_agenda (p : Nat) (x : Part) : (s.setPart p x).agenda = s.agenda := rfl
@[simp] theorem State.setPart_cur (p : Nat) (x : Part) : (s.setPart p x).cur = s.cur := rfl

/-! ## State.updPart -/

@[simp] theorem State.updPart_pkg (p : Nat) (f : Part → Part) : (s.updPart p f).pkg = s.pkg := rfl
@[simp] theorem State.updPart_mem (p : Nat) (f : Part → Part) : (s.updPart p f).mem = s.mem := rfl
@[simp] theorem State.updPart_opbuf (p : Nat) (f : Part → Part) : (s.updPart p f).opbuf = s.opbuf := rfl
@[simp] theorem State.updPart_poison (p : Nat) (f : Part → Part) : (s.updPart p f).poison = s.poison := rfl
@[simp] theorem State.updPart_fullUnits (p : Nat) (f : Part → Part) : (s.updPart p f).fullUnits = s.fullUnits := rfl
@[simp] theorem State.updPart_pages (p : Nat) (f : Part → Part) : (s.updPart p f).pages = s.pages := rfl
@[simp] theorem State.updPart_tables (p : Nat) (f : Part → Part) : (s.updPart p f).tables = s.tables := rfl
@[simp] theorem State.updPart_own (p : Nat) (f : Part → Part) : (s.updPart p f).own = s.own := rfl
@[simp] theorem State.updPart_clock (p : Nat) (f : Part → Part) : (s.updPart p f).clock = s.clock := rfl
@[simp] theorem State.updPart_slots (p : Nat) (f : Part → Part) : (s.updPart p f).slots = s.slots := rfl
@[simp] theorem State.updPart_nextSlot (p : Nat) (f : Part → Part) : (s.updPart p f).nextSlot = s.nextSlot := rfl
@[simp] theorem State.updPart_pageWaits (p : Nat) (f : Part → Part) : (s.updPart p f).pageWaits = s.pageWaits := rfl
@[simp] theorem State.updPart_pageMore (p : Nat) (f : Part → Part) : (s.updPart p f).pageMore = s.pageMore := rfl
@[simp] theorem State.updPart_parts (p : Nat) (f : Part → Part) : (s.updPart p f).parts = s.parts.upd p f := rfl
@[simp] theorem State.updPart_queues (p : Nat) (f : Part → Part) : (s.updPart p f).queues = s.queues := rfl
@[simp] theorem State.updPart_launches (p : Nat) (f : Part → Part) : (s.updPart p f).launches = s.launches := rfl
@[simp] theorem State.updPart_flues (p : Nat) (f : Part → Part) : (s.updPart p f).flues = s.flues := rfl
@[simp] theorem State.updPart_slices (p : Nat) (f : Part → Part) : (s.updPart p f).slices = s.slices := rfl
@[simp] theorem State.updPart_grants (p : Nat) (f : Part → Part) : (s.updPart p f).grants = s.grants := rfl
@[simp] theorem State.updPart_groups (p : Nat) (f : Part → Part) : (s.updPart p f).groups = s.groups := rfl
@[simp] theorem State.updPart_threads (p : Nat) (f : Part → Part) : (s.updPart p f).threads = s.threads := rfl
@[simp] theorem State.updPart_grates (p : Nat) (f : Part → Part) : (s.updPart p f).grates = s.grates := rfl
@[simp] theorem State.updPart_vreg (p : Nat) (f : Part → Part) : (s.updPart p f).vreg = s.vreg := rfl
@[simp] theorem State.updPart_preg (p : Nat) (f : Part → Part) : (s.updPart p f).preg = s.preg := rfl
@[simp] theorem State.updPart_ureg (p : Nat) (f : Part → Part) : (s.updPart p f).ureg = s.ureg := rfl
@[simp] theorem State.updPart_treg (p : Nat) (f : Part → Part) : (s.updPart p f).treg = s.treg := rfl
@[simp] theorem State.updPart_pinreg (p : Nat) (f : Part → Part) : (s.updPart p f).pinreg = s.pinreg := rfl
@[simp] theorem State.updPart_pinDir (p : Nat) (f : Part → Part) : (s.updPart p f).pinDir = s.pinDir := rfl
@[simp] theorem State.updPart_accs (p : Nat) (f : Part → Part) : (s.updPart p f).accs = s.accs := rfl
@[simp] theorem State.updPart_planesA (p : Nat) (f : Part → Part) : (s.updPart p f).planesA = s.planesA := rfl
@[simp] theorem State.updPart_planesS (p : Nat) (f : Part → Part) : (s.updPart p f).planesS = s.planesS := rfl
@[simp] theorem State.updPart_fills (p : Nat) (f : Part → Part) : (s.updPart p f).fills = s.fills := rfl
@[simp] theorem State.updPart_stores (p : Nat) (f : Part → Part) : (s.updPart p f).stores = s.stores := rfl
@[simp] theorem State.updPart_colls (p : Nat) (f : Part → Part) : (s.updPart p f).colls = s.colls := rfl
@[simp] theorem State.updPart_tloads (p : Nat) (f : Part → Part) : (s.updPart p f).tloads = s.tloads := rfl
@[simp] theorem State.updPart_matq (p : Nat) (f : Part → Part) : (s.updPart p f).matq = s.matq := rfl
@[simp] theorem State.updPart_searches (p : Nat) (f : Part → Part) : (s.updPart p f).searches = s.searches := rfl
@[simp] theorem State.updPart_sigrds (p : Nat) (f : Part → Part) : (s.updPart p f).sigrds = s.sigrds := rfl
@[simp] theorem State.updPart_stops (p : Nat) (f : Part → Part) : (s.updPart p f).stops = s.stops := rfl
@[simp] theorem State.updPart_bars (p : Nat) (f : Part → Part) : (s.updPart p f).bars = s.bars := rfl
@[simp] theorem State.updPart_ctrs (p : Nat) (f : Part → Part) : (s.updPart p f).ctrs = s.ctrs := rfl
@[simp] theorem State.updPart_lcb (p : Nat) (f : Part → Part) : (s.updPart p f).lcb = s.lcb := rfl
@[simp] theorem State.updPart_issued (p : Nat) (f : Part → Part) : (s.updPart p f).issued = s.issued := rfl
@[simp] theorem State.updPart_refCount (p : Nat) (f : Part → Part) : (s.updPart p f).refCount = s.refCount := rfl
@[simp] theorem State.updPart_coreCycle (p : Nat) (f : Part → Part) : (s.updPart p f).coreCycle = s.coreCycle := rfl
@[simp] theorem State.updPart_traceSel (p : Nat) (f : Part → Part) : (s.updPart p f).traceSel = s.traceSel := rfl
@[simp] theorem State.updPart_stamp (p : Nat) (f : Part → Part) : (s.updPart p f).stamp = s.stamp := rfl
@[simp] theorem State.updPart_agenda (p : Nat) (f : Part → Part) : (s.updPart p f).agenda = s.agenda := rfl
@[simp] theorem State.updPart_cur (p : Nat) (f : Part → Part) : (s.updPart p f).cur = s.cur := rfl

/-! ## State.updThread -/

@[simp] theorem State.updThread_pkg (tid : Nat) (f : Thread → Thread) : (s.updThread tid f).pkg = s.pkg := rfl
@[simp] theorem State.updThread_mem (tid : Nat) (f : Thread → Thread) : (s.updThread tid f).mem = s.mem := rfl
@[simp] theorem State.updThread_opbuf (tid : Nat) (f : Thread → Thread) : (s.updThread tid f).opbuf = s.opbuf := rfl
@[simp] theorem State.updThread_poison (tid : Nat) (f : Thread → Thread) : (s.updThread tid f).poison = s.poison := rfl
@[simp] theorem State.updThread_fullUnits (tid : Nat) (f : Thread → Thread) : (s.updThread tid f).fullUnits = s.fullUnits := rfl
@[simp] theorem State.updThread_pages (tid : Nat) (f : Thread → Thread) : (s.updThread tid f).pages = s.pages := rfl
@[simp] theorem State.updThread_tables (tid : Nat) (f : Thread → Thread) : (s.updThread tid f).tables = s.tables := rfl
@[simp] theorem State.updThread_own (tid : Nat) (f : Thread → Thread) : (s.updThread tid f).own = s.own := rfl
@[simp] theorem State.updThread_clock (tid : Nat) (f : Thread → Thread) : (s.updThread tid f).clock = s.clock := rfl
@[simp] theorem State.updThread_slots (tid : Nat) (f : Thread → Thread) : (s.updThread tid f).slots = s.slots := rfl
@[simp] theorem State.updThread_nextSlot (tid : Nat) (f : Thread → Thread) : (s.updThread tid f).nextSlot = s.nextSlot := rfl
@[simp] theorem State.updThread_pageWaits (tid : Nat) (f : Thread → Thread) : (s.updThread tid f).pageWaits = s.pageWaits := rfl
@[simp] theorem State.updThread_pageMore (tid : Nat) (f : Thread → Thread) : (s.updThread tid f).pageMore = s.pageMore := rfl
@[simp] theorem State.updThread_parts (tid : Nat) (f : Thread → Thread) : (s.updThread tid f).parts = s.parts := rfl
@[simp] theorem State.updThread_queues (tid : Nat) (f : Thread → Thread) : (s.updThread tid f).queues = s.queues := rfl
@[simp] theorem State.updThread_launches (tid : Nat) (f : Thread → Thread) : (s.updThread tid f).launches = s.launches := rfl
@[simp] theorem State.updThread_flues (tid : Nat) (f : Thread → Thread) : (s.updThread tid f).flues = s.flues := rfl
@[simp] theorem State.updThread_slices (tid : Nat) (f : Thread → Thread) : (s.updThread tid f).slices = s.slices := rfl
@[simp] theorem State.updThread_grants (tid : Nat) (f : Thread → Thread) : (s.updThread tid f).grants = s.grants := rfl
@[simp] theorem State.updThread_groups (tid : Nat) (f : Thread → Thread) : (s.updThread tid f).groups = s.groups := rfl
@[simp] theorem State.updThread_threads (tid : Nat) (f : Thread → Thread) : (s.updThread tid f).threads = s.threads.upd tid f := rfl
@[simp] theorem State.updThread_grates (tid : Nat) (f : Thread → Thread) : (s.updThread tid f).grates = s.grates := rfl
@[simp] theorem State.updThread_vreg (tid : Nat) (f : Thread → Thread) : (s.updThread tid f).vreg = s.vreg := rfl
@[simp] theorem State.updThread_preg (tid : Nat) (f : Thread → Thread) : (s.updThread tid f).preg = s.preg := rfl
@[simp] theorem State.updThread_ureg (tid : Nat) (f : Thread → Thread) : (s.updThread tid f).ureg = s.ureg := rfl
@[simp] theorem State.updThread_treg (tid : Nat) (f : Thread → Thread) : (s.updThread tid f).treg = s.treg := rfl
@[simp] theorem State.updThread_pinreg (tid : Nat) (f : Thread → Thread) : (s.updThread tid f).pinreg = s.pinreg := rfl
@[simp] theorem State.updThread_pinDir (tid : Nat) (f : Thread → Thread) : (s.updThread tid f).pinDir = s.pinDir := rfl
@[simp] theorem State.updThread_accs (tid : Nat) (f : Thread → Thread) : (s.updThread tid f).accs = s.accs := rfl
@[simp] theorem State.updThread_planesA (tid : Nat) (f : Thread → Thread) : (s.updThread tid f).planesA = s.planesA := rfl
@[simp] theorem State.updThread_planesS (tid : Nat) (f : Thread → Thread) : (s.updThread tid f).planesS = s.planesS := rfl
@[simp] theorem State.updThread_fills (tid : Nat) (f : Thread → Thread) : (s.updThread tid f).fills = s.fills := rfl
@[simp] theorem State.updThread_stores (tid : Nat) (f : Thread → Thread) : (s.updThread tid f).stores = s.stores := rfl
@[simp] theorem State.updThread_colls (tid : Nat) (f : Thread → Thread) : (s.updThread tid f).colls = s.colls := rfl
@[simp] theorem State.updThread_tloads (tid : Nat) (f : Thread → Thread) : (s.updThread tid f).tloads = s.tloads := rfl
@[simp] theorem State.updThread_matq (tid : Nat) (f : Thread → Thread) : (s.updThread tid f).matq = s.matq := rfl
@[simp] theorem State.updThread_searches (tid : Nat) (f : Thread → Thread) : (s.updThread tid f).searches = s.searches := rfl
@[simp] theorem State.updThread_sigrds (tid : Nat) (f : Thread → Thread) : (s.updThread tid f).sigrds = s.sigrds := rfl
@[simp] theorem State.updThread_stops (tid : Nat) (f : Thread → Thread) : (s.updThread tid f).stops = s.stops := rfl
@[simp] theorem State.updThread_bars (tid : Nat) (f : Thread → Thread) : (s.updThread tid f).bars = s.bars := rfl
@[simp] theorem State.updThread_ctrs (tid : Nat) (f : Thread → Thread) : (s.updThread tid f).ctrs = s.ctrs := rfl
@[simp] theorem State.updThread_lcb (tid : Nat) (f : Thread → Thread) : (s.updThread tid f).lcb = s.lcb := rfl
@[simp] theorem State.updThread_issued (tid : Nat) (f : Thread → Thread) : (s.updThread tid f).issued = s.issued := rfl
@[simp] theorem State.updThread_refCount (tid : Nat) (f : Thread → Thread) : (s.updThread tid f).refCount = s.refCount := rfl
@[simp] theorem State.updThread_coreCycle (tid : Nat) (f : Thread → Thread) : (s.updThread tid f).coreCycle = s.coreCycle := rfl
@[simp] theorem State.updThread_traceSel (tid : Nat) (f : Thread → Thread) : (s.updThread tid f).traceSel = s.traceSel := rfl
@[simp] theorem State.updThread_stamp (tid : Nat) (f : Thread → Thread) : (s.updThread tid f).stamp = s.stamp := rfl
@[simp] theorem State.updThread_agenda (tid : Nat) (f : Thread → Thread) : (s.updThread tid f).agenda = s.agenda := rfl
@[simp] theorem State.updThread_cur (tid : Nat) (f : Thread → Thread) : (s.updThread tid f).cur = s.cur := rfl

/-! ## State.updGroup -/

@[simp] theorem State.updGroup_pkg (gid : Nat) (f : Group → Group) : (s.updGroup gid f).pkg = s.pkg := rfl
@[simp] theorem State.updGroup_mem (gid : Nat) (f : Group → Group) : (s.updGroup gid f).mem = s.mem := rfl
@[simp] theorem State.updGroup_opbuf (gid : Nat) (f : Group → Group) : (s.updGroup gid f).opbuf = s.opbuf := rfl
@[simp] theorem State.updGroup_poison (gid : Nat) (f : Group → Group) : (s.updGroup gid f).poison = s.poison := rfl
@[simp] theorem State.updGroup_fullUnits (gid : Nat) (f : Group → Group) : (s.updGroup gid f).fullUnits = s.fullUnits := rfl
@[simp] theorem State.updGroup_pages (gid : Nat) (f : Group → Group) : (s.updGroup gid f).pages = s.pages := rfl
@[simp] theorem State.updGroup_tables (gid : Nat) (f : Group → Group) : (s.updGroup gid f).tables = s.tables := rfl
@[simp] theorem State.updGroup_own (gid : Nat) (f : Group → Group) : (s.updGroup gid f).own = s.own := rfl
@[simp] theorem State.updGroup_clock (gid : Nat) (f : Group → Group) : (s.updGroup gid f).clock = s.clock := rfl
@[simp] theorem State.updGroup_slots (gid : Nat) (f : Group → Group) : (s.updGroup gid f).slots = s.slots := rfl
@[simp] theorem State.updGroup_nextSlot (gid : Nat) (f : Group → Group) : (s.updGroup gid f).nextSlot = s.nextSlot := rfl
@[simp] theorem State.updGroup_pageWaits (gid : Nat) (f : Group → Group) : (s.updGroup gid f).pageWaits = s.pageWaits := rfl
@[simp] theorem State.updGroup_pageMore (gid : Nat) (f : Group → Group) : (s.updGroup gid f).pageMore = s.pageMore := rfl
@[simp] theorem State.updGroup_parts (gid : Nat) (f : Group → Group) : (s.updGroup gid f).parts = s.parts := rfl
@[simp] theorem State.updGroup_queues (gid : Nat) (f : Group → Group) : (s.updGroup gid f).queues = s.queues := rfl
@[simp] theorem State.updGroup_launches (gid : Nat) (f : Group → Group) : (s.updGroup gid f).launches = s.launches := rfl
@[simp] theorem State.updGroup_flues (gid : Nat) (f : Group → Group) : (s.updGroup gid f).flues = s.flues := rfl
@[simp] theorem State.updGroup_slices (gid : Nat) (f : Group → Group) : (s.updGroup gid f).slices = s.slices := rfl
@[simp] theorem State.updGroup_grants (gid : Nat) (f : Group → Group) : (s.updGroup gid f).grants = s.grants := rfl
@[simp] theorem State.updGroup_groups (gid : Nat) (f : Group → Group) : (s.updGroup gid f).groups = s.groups.upd gid f := rfl
@[simp] theorem State.updGroup_threads (gid : Nat) (f : Group → Group) : (s.updGroup gid f).threads = s.threads := rfl
@[simp] theorem State.updGroup_grates (gid : Nat) (f : Group → Group) : (s.updGroup gid f).grates = s.grates := rfl
@[simp] theorem State.updGroup_vreg (gid : Nat) (f : Group → Group) : (s.updGroup gid f).vreg = s.vreg := rfl
@[simp] theorem State.updGroup_preg (gid : Nat) (f : Group → Group) : (s.updGroup gid f).preg = s.preg := rfl
@[simp] theorem State.updGroup_ureg (gid : Nat) (f : Group → Group) : (s.updGroup gid f).ureg = s.ureg := rfl
@[simp] theorem State.updGroup_treg (gid : Nat) (f : Group → Group) : (s.updGroup gid f).treg = s.treg := rfl
@[simp] theorem State.updGroup_pinreg (gid : Nat) (f : Group → Group) : (s.updGroup gid f).pinreg = s.pinreg := rfl
@[simp] theorem State.updGroup_pinDir (gid : Nat) (f : Group → Group) : (s.updGroup gid f).pinDir = s.pinDir := rfl
@[simp] theorem State.updGroup_accs (gid : Nat) (f : Group → Group) : (s.updGroup gid f).accs = s.accs := rfl
@[simp] theorem State.updGroup_planesA (gid : Nat) (f : Group → Group) : (s.updGroup gid f).planesA = s.planesA := rfl
@[simp] theorem State.updGroup_planesS (gid : Nat) (f : Group → Group) : (s.updGroup gid f).planesS = s.planesS := rfl
@[simp] theorem State.updGroup_fills (gid : Nat) (f : Group → Group) : (s.updGroup gid f).fills = s.fills := rfl
@[simp] theorem State.updGroup_stores (gid : Nat) (f : Group → Group) : (s.updGroup gid f).stores = s.stores := rfl
@[simp] theorem State.updGroup_colls (gid : Nat) (f : Group → Group) : (s.updGroup gid f).colls = s.colls := rfl
@[simp] theorem State.updGroup_tloads (gid : Nat) (f : Group → Group) : (s.updGroup gid f).tloads = s.tloads := rfl
@[simp] theorem State.updGroup_matq (gid : Nat) (f : Group → Group) : (s.updGroup gid f).matq = s.matq := rfl
@[simp] theorem State.updGroup_searches (gid : Nat) (f : Group → Group) : (s.updGroup gid f).searches = s.searches := rfl
@[simp] theorem State.updGroup_sigrds (gid : Nat) (f : Group → Group) : (s.updGroup gid f).sigrds = s.sigrds := rfl
@[simp] theorem State.updGroup_stops (gid : Nat) (f : Group → Group) : (s.updGroup gid f).stops = s.stops := rfl
@[simp] theorem State.updGroup_bars (gid : Nat) (f : Group → Group) : (s.updGroup gid f).bars = s.bars := rfl
@[simp] theorem State.updGroup_ctrs (gid : Nat) (f : Group → Group) : (s.updGroup gid f).ctrs = s.ctrs := rfl
@[simp] theorem State.updGroup_lcb (gid : Nat) (f : Group → Group) : (s.updGroup gid f).lcb = s.lcb := rfl
@[simp] theorem State.updGroup_issued (gid : Nat) (f : Group → Group) : (s.updGroup gid f).issued = s.issued := rfl
@[simp] theorem State.updGroup_refCount (gid : Nat) (f : Group → Group) : (s.updGroup gid f).refCount = s.refCount := rfl
@[simp] theorem State.updGroup_coreCycle (gid : Nat) (f : Group → Group) : (s.updGroup gid f).coreCycle = s.coreCycle := rfl
@[simp] theorem State.updGroup_traceSel (gid : Nat) (f : Group → Group) : (s.updGroup gid f).traceSel = s.traceSel := rfl
@[simp] theorem State.updGroup_stamp (gid : Nat) (f : Group → Group) : (s.updGroup gid f).stamp = s.stamp := rfl
@[simp] theorem State.updGroup_agenda (gid : Nat) (f : Group → Group) : (s.updGroup gid f).agenda = s.agenda := rfl
@[simp] theorem State.updGroup_cur (gid : Nat) (f : Group → Group) : (s.updGroup gid f).cur = s.cur := rfl

/-! ## State.updLaunch -/

@[simp] theorem State.updLaunch_pkg (id : Nat) (f : Launch → Launch) : (s.updLaunch id f).pkg = s.pkg := rfl
@[simp] theorem State.updLaunch_mem (id : Nat) (f : Launch → Launch) : (s.updLaunch id f).mem = s.mem := rfl
@[simp] theorem State.updLaunch_opbuf (id : Nat) (f : Launch → Launch) : (s.updLaunch id f).opbuf = s.opbuf := rfl
@[simp] theorem State.updLaunch_poison (id : Nat) (f : Launch → Launch) : (s.updLaunch id f).poison = s.poison := rfl
@[simp] theorem State.updLaunch_fullUnits (id : Nat) (f : Launch → Launch) : (s.updLaunch id f).fullUnits = s.fullUnits := rfl
@[simp] theorem State.updLaunch_pages (id : Nat) (f : Launch → Launch) : (s.updLaunch id f).pages = s.pages := rfl
@[simp] theorem State.updLaunch_tables (id : Nat) (f : Launch → Launch) : (s.updLaunch id f).tables = s.tables := rfl
@[simp] theorem State.updLaunch_own (id : Nat) (f : Launch → Launch) : (s.updLaunch id f).own = s.own := rfl
@[simp] theorem State.updLaunch_clock (id : Nat) (f : Launch → Launch) : (s.updLaunch id f).clock = s.clock := rfl
@[simp] theorem State.updLaunch_slots (id : Nat) (f : Launch → Launch) : (s.updLaunch id f).slots = s.slots := rfl
@[simp] theorem State.updLaunch_nextSlot (id : Nat) (f : Launch → Launch) : (s.updLaunch id f).nextSlot = s.nextSlot := rfl
@[simp] theorem State.updLaunch_pageWaits (id : Nat) (f : Launch → Launch) : (s.updLaunch id f).pageWaits = s.pageWaits := rfl
@[simp] theorem State.updLaunch_pageMore (id : Nat) (f : Launch → Launch) : (s.updLaunch id f).pageMore = s.pageMore := rfl
@[simp] theorem State.updLaunch_parts (id : Nat) (f : Launch → Launch) : (s.updLaunch id f).parts = s.parts := rfl
@[simp] theorem State.updLaunch_queues (id : Nat) (f : Launch → Launch) : (s.updLaunch id f).queues = s.queues := rfl
@[simp] theorem State.updLaunch_launches (id : Nat) (f : Launch → Launch) : (s.updLaunch id f).launches = s.launches.upd id f := rfl
@[simp] theorem State.updLaunch_flues (id : Nat) (f : Launch → Launch) : (s.updLaunch id f).flues = s.flues := rfl
@[simp] theorem State.updLaunch_slices (id : Nat) (f : Launch → Launch) : (s.updLaunch id f).slices = s.slices := rfl
@[simp] theorem State.updLaunch_grants (id : Nat) (f : Launch → Launch) : (s.updLaunch id f).grants = s.grants := rfl
@[simp] theorem State.updLaunch_groups (id : Nat) (f : Launch → Launch) : (s.updLaunch id f).groups = s.groups := rfl
@[simp] theorem State.updLaunch_threads (id : Nat) (f : Launch → Launch) : (s.updLaunch id f).threads = s.threads := rfl
@[simp] theorem State.updLaunch_grates (id : Nat) (f : Launch → Launch) : (s.updLaunch id f).grates = s.grates := rfl
@[simp] theorem State.updLaunch_vreg (id : Nat) (f : Launch → Launch) : (s.updLaunch id f).vreg = s.vreg := rfl
@[simp] theorem State.updLaunch_preg (id : Nat) (f : Launch → Launch) : (s.updLaunch id f).preg = s.preg := rfl
@[simp] theorem State.updLaunch_ureg (id : Nat) (f : Launch → Launch) : (s.updLaunch id f).ureg = s.ureg := rfl
@[simp] theorem State.updLaunch_treg (id : Nat) (f : Launch → Launch) : (s.updLaunch id f).treg = s.treg := rfl
@[simp] theorem State.updLaunch_pinreg (id : Nat) (f : Launch → Launch) : (s.updLaunch id f).pinreg = s.pinreg := rfl
@[simp] theorem State.updLaunch_pinDir (id : Nat) (f : Launch → Launch) : (s.updLaunch id f).pinDir = s.pinDir := rfl
@[simp] theorem State.updLaunch_accs (id : Nat) (f : Launch → Launch) : (s.updLaunch id f).accs = s.accs := rfl
@[simp] theorem State.updLaunch_planesA (id : Nat) (f : Launch → Launch) : (s.updLaunch id f).planesA = s.planesA := rfl
@[simp] theorem State.updLaunch_planesS (id : Nat) (f : Launch → Launch) : (s.updLaunch id f).planesS = s.planesS := rfl
@[simp] theorem State.updLaunch_fills (id : Nat) (f : Launch → Launch) : (s.updLaunch id f).fills = s.fills := rfl
@[simp] theorem State.updLaunch_stores (id : Nat) (f : Launch → Launch) : (s.updLaunch id f).stores = s.stores := rfl
@[simp] theorem State.updLaunch_colls (id : Nat) (f : Launch → Launch) : (s.updLaunch id f).colls = s.colls := rfl
@[simp] theorem State.updLaunch_tloads (id : Nat) (f : Launch → Launch) : (s.updLaunch id f).tloads = s.tloads := rfl
@[simp] theorem State.updLaunch_matq (id : Nat) (f : Launch → Launch) : (s.updLaunch id f).matq = s.matq := rfl
@[simp] theorem State.updLaunch_searches (id : Nat) (f : Launch → Launch) : (s.updLaunch id f).searches = s.searches := rfl
@[simp] theorem State.updLaunch_sigrds (id : Nat) (f : Launch → Launch) : (s.updLaunch id f).sigrds = s.sigrds := rfl
@[simp] theorem State.updLaunch_stops (id : Nat) (f : Launch → Launch) : (s.updLaunch id f).stops = s.stops := rfl
@[simp] theorem State.updLaunch_bars (id : Nat) (f : Launch → Launch) : (s.updLaunch id f).bars = s.bars := rfl
@[simp] theorem State.updLaunch_ctrs (id : Nat) (f : Launch → Launch) : (s.updLaunch id f).ctrs = s.ctrs := rfl
@[simp] theorem State.updLaunch_lcb (id : Nat) (f : Launch → Launch) : (s.updLaunch id f).lcb = s.lcb := rfl
@[simp] theorem State.updLaunch_issued (id : Nat) (f : Launch → Launch) : (s.updLaunch id f).issued = s.issued := rfl
@[simp] theorem State.updLaunch_refCount (id : Nat) (f : Launch → Launch) : (s.updLaunch id f).refCount = s.refCount := rfl
@[simp] theorem State.updLaunch_coreCycle (id : Nat) (f : Launch → Launch) : (s.updLaunch id f).coreCycle = s.coreCycle := rfl
@[simp] theorem State.updLaunch_traceSel (id : Nat) (f : Launch → Launch) : (s.updLaunch id f).traceSel = s.traceSel := rfl
@[simp] theorem State.updLaunch_stamp (id : Nat) (f : Launch → Launch) : (s.updLaunch id f).stamp = s.stamp := rfl
@[simp] theorem State.updLaunch_agenda (id : Nat) (f : Launch → Launch) : (s.updLaunch id f).agenda = s.agenda := rfl
@[simp] theorem State.updLaunch_cur (id : Nat) (f : Launch → Launch) : (s.updLaunch id f).cur = s.cur := rfl

/-! ## State.setPage -/

@[simp] theorem State.setPage_pkg (space page : Nat) (e : PageEnt) : (s.setPage space page e).pkg = s.pkg := by
  obtain ⟨t, h⟩ := s.makeTables_only space page e.size
  simp only [State.setPage, h]
@[simp] theorem State.setPage_mem (space page : Nat) (e : PageEnt) : (s.setPage space page e).mem = s.mem := by
  obtain ⟨t, h⟩ := s.makeTables_only space page e.size
  simp only [State.setPage, h]
@[simp] theorem State.setPage_opbuf (space page : Nat) (e : PageEnt) : (s.setPage space page e).opbuf = s.opbuf := by
  obtain ⟨t, h⟩ := s.makeTables_only space page e.size
  simp only [State.setPage, h]
@[simp] theorem State.setPage_poison (space page : Nat) (e : PageEnt) : (s.setPage space page e).poison = s.poison := by
  obtain ⟨t, h⟩ := s.makeTables_only space page e.size
  simp only [State.setPage, h]
@[simp] theorem State.setPage_fullUnits (space page : Nat) (e : PageEnt) : (s.setPage space page e).fullUnits = s.fullUnits := by
  obtain ⟨t, h⟩ := s.makeTables_only space page e.size
  simp only [State.setPage, h]
@[simp] theorem State.setPage_pages (space page : Nat) (e : PageEnt) : (s.setPage space page e).pages = s.pages.put (pageKey space page) e := rfl
@[simp] theorem State.setPage_tables (space page : Nat) (e : PageEnt) : (s.setPage space page e).tables = (s.makeTables space page e.size).tables := rfl
@[simp] theorem State.setPage_own (space page : Nat) (e : PageEnt) : (s.setPage space page e).own = s.own := by
  obtain ⟨t, h⟩ := s.makeTables_only space page e.size
  simp only [State.setPage, h]
@[simp] theorem State.setPage_clock (space page : Nat) (e : PageEnt) : (s.setPage space page e).clock = s.clock := by
  obtain ⟨t, h⟩ := s.makeTables_only space page e.size
  simp only [State.setPage, h]
@[simp] theorem State.setPage_slots (space page : Nat) (e : PageEnt) : (s.setPage space page e).slots = s.slots := by
  obtain ⟨t, h⟩ := s.makeTables_only space page e.size
  simp only [State.setPage, h]
@[simp] theorem State.setPage_nextSlot (space page : Nat) (e : PageEnt) : (s.setPage space page e).nextSlot = s.nextSlot := by
  obtain ⟨t, h⟩ := s.makeTables_only space page e.size
  simp only [State.setPage, h]
@[simp] theorem State.setPage_pageWaits (space page : Nat) (e : PageEnt) : (s.setPage space page e).pageWaits = s.pageWaits := by
  obtain ⟨t, h⟩ := s.makeTables_only space page e.size
  simp only [State.setPage, h]
@[simp] theorem State.setPage_pageMore (space page : Nat) (e : PageEnt) : (s.setPage space page e).pageMore = s.pageMore := by
  obtain ⟨t, h⟩ := s.makeTables_only space page e.size
  simp only [State.setPage, h]
@[simp] theorem State.setPage_parts (space page : Nat) (e : PageEnt) : (s.setPage space page e).parts = s.parts := by
  obtain ⟨t, h⟩ := s.makeTables_only space page e.size
  simp only [State.setPage, h]
@[simp] theorem State.setPage_queues (space page : Nat) (e : PageEnt) : (s.setPage space page e).queues = s.queues := by
  obtain ⟨t, h⟩ := s.makeTables_only space page e.size
  simp only [State.setPage, h]
@[simp] theorem State.setPage_launches (space page : Nat) (e : PageEnt) : (s.setPage space page e).launches = s.launches := by
  obtain ⟨t, h⟩ := s.makeTables_only space page e.size
  simp only [State.setPage, h]
@[simp] theorem State.setPage_flues (space page : Nat) (e : PageEnt) : (s.setPage space page e).flues = s.flues := by
  obtain ⟨t, h⟩ := s.makeTables_only space page e.size
  simp only [State.setPage, h]
@[simp] theorem State.setPage_slices (space page : Nat) (e : PageEnt) : (s.setPage space page e).slices = s.slices := by
  obtain ⟨t, h⟩ := s.makeTables_only space page e.size
  simp only [State.setPage, h]
@[simp] theorem State.setPage_grants (space page : Nat) (e : PageEnt) : (s.setPage space page e).grants = s.grants := by
  obtain ⟨t, h⟩ := s.makeTables_only space page e.size
  simp only [State.setPage, h]
@[simp] theorem State.setPage_groups (space page : Nat) (e : PageEnt) : (s.setPage space page e).groups = s.groups := by
  obtain ⟨t, h⟩ := s.makeTables_only space page e.size
  simp only [State.setPage, h]
@[simp] theorem State.setPage_threads (space page : Nat) (e : PageEnt) : (s.setPage space page e).threads = s.threads := by
  obtain ⟨t, h⟩ := s.makeTables_only space page e.size
  simp only [State.setPage, h]
@[simp] theorem State.setPage_grates (space page : Nat) (e : PageEnt) : (s.setPage space page e).grates = s.grates := by
  obtain ⟨t, h⟩ := s.makeTables_only space page e.size
  simp only [State.setPage, h]
@[simp] theorem State.setPage_vreg (space page : Nat) (e : PageEnt) : (s.setPage space page e).vreg = s.vreg := by
  obtain ⟨t, h⟩ := s.makeTables_only space page e.size
  simp only [State.setPage, h]
@[simp] theorem State.setPage_preg (space page : Nat) (e : PageEnt) : (s.setPage space page e).preg = s.preg := by
  obtain ⟨t, h⟩ := s.makeTables_only space page e.size
  simp only [State.setPage, h]
@[simp] theorem State.setPage_ureg (space page : Nat) (e : PageEnt) : (s.setPage space page e).ureg = s.ureg := by
  obtain ⟨t, h⟩ := s.makeTables_only space page e.size
  simp only [State.setPage, h]
@[simp] theorem State.setPage_treg (space page : Nat) (e : PageEnt) : (s.setPage space page e).treg = s.treg := by
  obtain ⟨t, h⟩ := s.makeTables_only space page e.size
  simp only [State.setPage, h]
@[simp] theorem State.setPage_pinreg (space page : Nat) (e : PageEnt) : (s.setPage space page e).pinreg = s.pinreg := by
  obtain ⟨t, h⟩ := s.makeTables_only space page e.size
  simp only [State.setPage, h]
@[simp] theorem State.setPage_pinDir (space page : Nat) (e : PageEnt) : (s.setPage space page e).pinDir = s.pinDir := by
  obtain ⟨t, h⟩ := s.makeTables_only space page e.size
  simp only [State.setPage, h]
@[simp] theorem State.setPage_accs (space page : Nat) (e : PageEnt) : (s.setPage space page e).accs = s.accs := by
  obtain ⟨t, h⟩ := s.makeTables_only space page e.size
  simp only [State.setPage, h]
@[simp] theorem State.setPage_planesA (space page : Nat) (e : PageEnt) : (s.setPage space page e).planesA = s.planesA := by
  obtain ⟨t, h⟩ := s.makeTables_only space page e.size
  simp only [State.setPage, h]
@[simp] theorem State.setPage_planesS (space page : Nat) (e : PageEnt) : (s.setPage space page e).planesS = s.planesS := by
  obtain ⟨t, h⟩ := s.makeTables_only space page e.size
  simp only [State.setPage, h]
@[simp] theorem State.setPage_fills (space page : Nat) (e : PageEnt) : (s.setPage space page e).fills = s.fills := by
  obtain ⟨t, h⟩ := s.makeTables_only space page e.size
  simp only [State.setPage, h]
@[simp] theorem State.setPage_stores (space page : Nat) (e : PageEnt) : (s.setPage space page e).stores = s.stores := by
  obtain ⟨t, h⟩ := s.makeTables_only space page e.size
  simp only [State.setPage, h]
@[simp] theorem State.setPage_colls (space page : Nat) (e : PageEnt) : (s.setPage space page e).colls = s.colls := by
  obtain ⟨t, h⟩ := s.makeTables_only space page e.size
  simp only [State.setPage, h]
@[simp] theorem State.setPage_tloads (space page : Nat) (e : PageEnt) : (s.setPage space page e).tloads = s.tloads := by
  obtain ⟨t, h⟩ := s.makeTables_only space page e.size
  simp only [State.setPage, h]
@[simp] theorem State.setPage_matq (space page : Nat) (e : PageEnt) : (s.setPage space page e).matq = s.matq := by
  obtain ⟨t, h⟩ := s.makeTables_only space page e.size
  simp only [State.setPage, h]
@[simp] theorem State.setPage_searches (space page : Nat) (e : PageEnt) : (s.setPage space page e).searches = s.searches := by
  obtain ⟨t, h⟩ := s.makeTables_only space page e.size
  simp only [State.setPage, h]
@[simp] theorem State.setPage_sigrds (space page : Nat) (e : PageEnt) : (s.setPage space page e).sigrds = s.sigrds := by
  obtain ⟨t, h⟩ := s.makeTables_only space page e.size
  simp only [State.setPage, h]
@[simp] theorem State.setPage_stops (space page : Nat) (e : PageEnt) : (s.setPage space page e).stops = s.stops := by
  obtain ⟨t, h⟩ := s.makeTables_only space page e.size
  simp only [State.setPage, h]
@[simp] theorem State.setPage_bars (space page : Nat) (e : PageEnt) : (s.setPage space page e).bars = s.bars := by
  obtain ⟨t, h⟩ := s.makeTables_only space page e.size
  simp only [State.setPage, h]
@[simp] theorem State.setPage_ctrs (space page : Nat) (e : PageEnt) : (s.setPage space page e).ctrs = s.ctrs := by
  obtain ⟨t, h⟩ := s.makeTables_only space page e.size
  simp only [State.setPage, h]
@[simp] theorem State.setPage_lcb (space page : Nat) (e : PageEnt) : (s.setPage space page e).lcb = s.lcb := by
  obtain ⟨t, h⟩ := s.makeTables_only space page e.size
  simp only [State.setPage, h]
@[simp] theorem State.setPage_issued (space page : Nat) (e : PageEnt) : (s.setPage space page e).issued = s.issued := by
  obtain ⟨t, h⟩ := s.makeTables_only space page e.size
  simp only [State.setPage, h]
@[simp] theorem State.setPage_refCount (space page : Nat) (e : PageEnt) : (s.setPage space page e).refCount = s.refCount := by
  obtain ⟨t, h⟩ := s.makeTables_only space page e.size
  simp only [State.setPage, h]
@[simp] theorem State.setPage_coreCycle (space page : Nat) (e : PageEnt) : (s.setPage space page e).coreCycle = s.coreCycle := by
  obtain ⟨t, h⟩ := s.makeTables_only space page e.size
  simp only [State.setPage, h]
@[simp] theorem State.setPage_traceSel (space page : Nat) (e : PageEnt) : (s.setPage space page e).traceSel = s.traceSel := by
  obtain ⟨t, h⟩ := s.makeTables_only space page e.size
  simp only [State.setPage, h]
@[simp] theorem State.setPage_stamp (space page : Nat) (e : PageEnt) : (s.setPage space page e).stamp = s.stamp := by
  obtain ⟨t, h⟩ := s.makeTables_only space page e.size
  simp only [State.setPage, h]
@[simp] theorem State.setPage_agenda (space page : Nat) (e : PageEnt) : (s.setPage space page e).agenda = s.agenda := by
  obtain ⟨t, h⟩ := s.makeTables_only space page e.size
  simp only [State.setPage, h]
@[simp] theorem State.setPage_cur (space page : Nat) (e : PageEnt) : (s.setPage space page e).cur = s.cur := by
  obtain ⟨t, h⟩ := s.makeTables_only space page e.size
  simp only [State.setPage, h]

/-! ## State.erasePage -/

@[simp] theorem State.erasePage_pkg (space page : Nat) : (s.erasePage space page).pkg = s.pkg := rfl
@[simp] theorem State.erasePage_mem (space page : Nat) : (s.erasePage space page).mem = s.mem := rfl
@[simp] theorem State.erasePage_opbuf (space page : Nat) : (s.erasePage space page).opbuf = s.opbuf := rfl
@[simp] theorem State.erasePage_poison (space page : Nat) : (s.erasePage space page).poison = s.poison := rfl
@[simp] theorem State.erasePage_fullUnits (space page : Nat) : (s.erasePage space page).fullUnits = s.fullUnits := rfl
@[simp] theorem State.erasePage_pages (space page : Nat) : (s.erasePage space page).pages = s.pages.erase (pageKey space page) := rfl
@[simp] theorem State.erasePage_tables (space page : Nat) : (s.erasePage space page).tables = s.tables := rfl
@[simp] theorem State.erasePage_own (space page : Nat) : (s.erasePage space page).own = s.own := rfl
@[simp] theorem State.erasePage_clock (space page : Nat) : (s.erasePage space page).clock = s.clock := rfl
@[simp] theorem State.erasePage_slots (space page : Nat) : (s.erasePage space page).slots = s.slots := rfl
@[simp] theorem State.erasePage_nextSlot (space page : Nat) : (s.erasePage space page).nextSlot = s.nextSlot := rfl
@[simp] theorem State.erasePage_pageWaits (space page : Nat) : (s.erasePage space page).pageWaits = s.pageWaits := rfl
@[simp] theorem State.erasePage_pageMore (space page : Nat) : (s.erasePage space page).pageMore = s.pageMore := rfl
@[simp] theorem State.erasePage_parts (space page : Nat) : (s.erasePage space page).parts = s.parts := rfl
@[simp] theorem State.erasePage_queues (space page : Nat) : (s.erasePage space page).queues = s.queues := rfl
@[simp] theorem State.erasePage_launches (space page : Nat) : (s.erasePage space page).launches = s.launches := rfl
@[simp] theorem State.erasePage_flues (space page : Nat) : (s.erasePage space page).flues = s.flues := rfl
@[simp] theorem State.erasePage_slices (space page : Nat) : (s.erasePage space page).slices = s.slices := rfl
@[simp] theorem State.erasePage_grants (space page : Nat) : (s.erasePage space page).grants = s.grants := rfl
@[simp] theorem State.erasePage_groups (space page : Nat) : (s.erasePage space page).groups = s.groups := rfl
@[simp] theorem State.erasePage_threads (space page : Nat) : (s.erasePage space page).threads = s.threads := rfl
@[simp] theorem State.erasePage_grates (space page : Nat) : (s.erasePage space page).grates = s.grates := rfl
@[simp] theorem State.erasePage_vreg (space page : Nat) : (s.erasePage space page).vreg = s.vreg := rfl
@[simp] theorem State.erasePage_preg (space page : Nat) : (s.erasePage space page).preg = s.preg := rfl
@[simp] theorem State.erasePage_ureg (space page : Nat) : (s.erasePage space page).ureg = s.ureg := rfl
@[simp] theorem State.erasePage_treg (space page : Nat) : (s.erasePage space page).treg = s.treg := rfl
@[simp] theorem State.erasePage_pinreg (space page : Nat) : (s.erasePage space page).pinreg = s.pinreg := rfl
@[simp] theorem State.erasePage_pinDir (space page : Nat) : (s.erasePage space page).pinDir = s.pinDir := rfl
@[simp] theorem State.erasePage_accs (space page : Nat) : (s.erasePage space page).accs = s.accs := rfl
@[simp] theorem State.erasePage_planesA (space page : Nat) : (s.erasePage space page).planesA = s.planesA := rfl
@[simp] theorem State.erasePage_planesS (space page : Nat) : (s.erasePage space page).planesS = s.planesS := rfl
@[simp] theorem State.erasePage_fills (space page : Nat) : (s.erasePage space page).fills = s.fills := rfl
@[simp] theorem State.erasePage_stores (space page : Nat) : (s.erasePage space page).stores = s.stores := rfl
@[simp] theorem State.erasePage_colls (space page : Nat) : (s.erasePage space page).colls = s.colls := rfl
@[simp] theorem State.erasePage_tloads (space page : Nat) : (s.erasePage space page).tloads = s.tloads := rfl
@[simp] theorem State.erasePage_matq (space page : Nat) : (s.erasePage space page).matq = s.matq := rfl
@[simp] theorem State.erasePage_searches (space page : Nat) : (s.erasePage space page).searches = s.searches := rfl
@[simp] theorem State.erasePage_sigrds (space page : Nat) : (s.erasePage space page).sigrds = s.sigrds := rfl
@[simp] theorem State.erasePage_stops (space page : Nat) : (s.erasePage space page).stops = s.stops := rfl
@[simp] theorem State.erasePage_bars (space page : Nat) : (s.erasePage space page).bars = s.bars := rfl
@[simp] theorem State.erasePage_ctrs (space page : Nat) : (s.erasePage space page).ctrs = s.ctrs := rfl
@[simp] theorem State.erasePage_lcb (space page : Nat) : (s.erasePage space page).lcb = s.lcb := rfl
@[simp] theorem State.erasePage_issued (space page : Nat) : (s.erasePage space page).issued = s.issued := rfl
@[simp] theorem State.erasePage_refCount (space page : Nat) : (s.erasePage space page).refCount = s.refCount := rfl
@[simp] theorem State.erasePage_coreCycle (space page : Nat) : (s.erasePage space page).coreCycle = s.coreCycle := rfl
@[simp] theorem State.erasePage_traceSel (space page : Nat) : (s.erasePage space page).traceSel = s.traceSel := rfl
@[simp] theorem State.erasePage_stamp (space page : Nat) : (s.erasePage space page).stamp = s.stamp := rfl
@[simp] theorem State.erasePage_agenda (space page : Nat) : (s.erasePage space page).agenda = s.agenda := rfl
@[simp] theorem State.erasePage_cur (space page : Nat) : (s.erasePage space page).cur = s.cur := rfl

/-! ## State.setQueue -/

@[simp] theorem State.setQueue_pkg (space handle : Nat) (q : Queue) : (s.setQueue space handle q).pkg = s.pkg := rfl
@[simp] theorem State.setQueue_mem (space handle : Nat) (q : Queue) : (s.setQueue space handle q).mem = s.mem := rfl
@[simp] theorem State.setQueue_opbuf (space handle : Nat) (q : Queue) : (s.setQueue space handle q).opbuf = s.opbuf := rfl
@[simp] theorem State.setQueue_poison (space handle : Nat) (q : Queue) : (s.setQueue space handle q).poison = s.poison := rfl
@[simp] theorem State.setQueue_fullUnits (space handle : Nat) (q : Queue) : (s.setQueue space handle q).fullUnits = s.fullUnits := rfl
@[simp] theorem State.setQueue_pages (space handle : Nat) (q : Queue) : (s.setQueue space handle q).pages = s.pages := rfl
@[simp] theorem State.setQueue_tables (space handle : Nat) (q : Queue) : (s.setQueue space handle q).tables = s.tables := rfl
@[simp] theorem State.setQueue_own (space handle : Nat) (q : Queue) : (s.setQueue space handle q).own = s.own := rfl
@[simp] theorem State.setQueue_clock (space handle : Nat) (q : Queue) : (s.setQueue space handle q).clock = s.clock := rfl
@[simp] theorem State.setQueue_slots (space handle : Nat) (q : Queue) : (s.setQueue space handle q).slots = s.slots := rfl
@[simp] theorem State.setQueue_nextSlot (space handle : Nat) (q : Queue) : (s.setQueue space handle q).nextSlot = s.nextSlot := rfl
@[simp] theorem State.setQueue_pageWaits (space handle : Nat) (q : Queue) : (s.setQueue space handle q).pageWaits = s.pageWaits := rfl
@[simp] theorem State.setQueue_pageMore (space handle : Nat) (q : Queue) : (s.setQueue space handle q).pageMore = s.pageMore := rfl
@[simp] theorem State.setQueue_parts (space handle : Nat) (q : Queue) : (s.setQueue space handle q).parts = s.parts := rfl
@[simp] theorem State.setQueue_queues (space handle : Nat) (q : Queue) : (s.setQueue space handle q).queues = s.queues.put (qKey space handle) q := rfl
@[simp] theorem State.setQueue_launches (space handle : Nat) (q : Queue) : (s.setQueue space handle q).launches = s.launches := rfl
@[simp] theorem State.setQueue_flues (space handle : Nat) (q : Queue) : (s.setQueue space handle q).flues = s.flues := rfl
@[simp] theorem State.setQueue_slices (space handle : Nat) (q : Queue) : (s.setQueue space handle q).slices = s.slices := rfl
@[simp] theorem State.setQueue_grants (space handle : Nat) (q : Queue) : (s.setQueue space handle q).grants = s.grants := rfl
@[simp] theorem State.setQueue_groups (space handle : Nat) (q : Queue) : (s.setQueue space handle q).groups = s.groups := rfl
@[simp] theorem State.setQueue_threads (space handle : Nat) (q : Queue) : (s.setQueue space handle q).threads = s.threads := rfl
@[simp] theorem State.setQueue_grates (space handle : Nat) (q : Queue) : (s.setQueue space handle q).grates = s.grates := rfl
@[simp] theorem State.setQueue_vreg (space handle : Nat) (q : Queue) : (s.setQueue space handle q).vreg = s.vreg := rfl
@[simp] theorem State.setQueue_preg (space handle : Nat) (q : Queue) : (s.setQueue space handle q).preg = s.preg := rfl
@[simp] theorem State.setQueue_ureg (space handle : Nat) (q : Queue) : (s.setQueue space handle q).ureg = s.ureg := rfl
@[simp] theorem State.setQueue_treg (space handle : Nat) (q : Queue) : (s.setQueue space handle q).treg = s.treg := rfl
@[simp] theorem State.setQueue_pinreg (space handle : Nat) (q : Queue) : (s.setQueue space handle q).pinreg = s.pinreg := rfl
@[simp] theorem State.setQueue_pinDir (space handle : Nat) (q : Queue) : (s.setQueue space handle q).pinDir = s.pinDir := rfl
@[simp] theorem State.setQueue_accs (space handle : Nat) (q : Queue) : (s.setQueue space handle q).accs = s.accs := rfl
@[simp] theorem State.setQueue_planesA (space handle : Nat) (q : Queue) : (s.setQueue space handle q).planesA = s.planesA := rfl
@[simp] theorem State.setQueue_planesS (space handle : Nat) (q : Queue) : (s.setQueue space handle q).planesS = s.planesS := rfl
@[simp] theorem State.setQueue_fills (space handle : Nat) (q : Queue) : (s.setQueue space handle q).fills = s.fills := rfl
@[simp] theorem State.setQueue_stores (space handle : Nat) (q : Queue) : (s.setQueue space handle q).stores = s.stores := rfl
@[simp] theorem State.setQueue_colls (space handle : Nat) (q : Queue) : (s.setQueue space handle q).colls = s.colls := rfl
@[simp] theorem State.setQueue_tloads (space handle : Nat) (q : Queue) : (s.setQueue space handle q).tloads = s.tloads := rfl
@[simp] theorem State.setQueue_matq (space handle : Nat) (q : Queue) : (s.setQueue space handle q).matq = s.matq := rfl
@[simp] theorem State.setQueue_searches (space handle : Nat) (q : Queue) : (s.setQueue space handle q).searches = s.searches := rfl
@[simp] theorem State.setQueue_sigrds (space handle : Nat) (q : Queue) : (s.setQueue space handle q).sigrds = s.sigrds := rfl
@[simp] theorem State.setQueue_stops (space handle : Nat) (q : Queue) : (s.setQueue space handle q).stops = s.stops := rfl
@[simp] theorem State.setQueue_bars (space handle : Nat) (q : Queue) : (s.setQueue space handle q).bars = s.bars := rfl
@[simp] theorem State.setQueue_ctrs (space handle : Nat) (q : Queue) : (s.setQueue space handle q).ctrs = s.ctrs := rfl
@[simp] theorem State.setQueue_lcb (space handle : Nat) (q : Queue) : (s.setQueue space handle q).lcb = s.lcb := rfl
@[simp] theorem State.setQueue_issued (space handle : Nat) (q : Queue) : (s.setQueue space handle q).issued = s.issued := rfl
@[simp] theorem State.setQueue_refCount (space handle : Nat) (q : Queue) : (s.setQueue space handle q).refCount = s.refCount := rfl
@[simp] theorem State.setQueue_coreCycle (space handle : Nat) (q : Queue) : (s.setQueue space handle q).coreCycle = s.coreCycle := rfl
@[simp] theorem State.setQueue_traceSel (space handle : Nat) (q : Queue) : (s.setQueue space handle q).traceSel = s.traceSel := rfl
@[simp] theorem State.setQueue_stamp (space handle : Nat) (q : Queue) : (s.setQueue space handle q).stamp = s.stamp := rfl
@[simp] theorem State.setQueue_agenda (space handle : Nat) (q : Queue) : (s.setQueue space handle q).agenda = s.agenda := rfl
@[simp] theorem State.setQueue_cur (space handle : Nat) (q : Queue) : (s.setQueue space handle q).cur = s.cur := rfl

/-! ## State.bump -/

@[simp] theorem State.bump_pkg (bank subject index n : Nat) : (s.bump bank subject index n).pkg = s.pkg := rfl
@[simp] theorem State.bump_mem (bank subject index n : Nat) : (s.bump bank subject index n).mem = s.mem := rfl
@[simp] theorem State.bump_opbuf (bank subject index n : Nat) : (s.bump bank subject index n).opbuf = s.opbuf := rfl
@[simp] theorem State.bump_poison (bank subject index n : Nat) : (s.bump bank subject index n).poison = s.poison := rfl
@[simp] theorem State.bump_fullUnits (bank subject index n : Nat) : (s.bump bank subject index n).fullUnits = s.fullUnits := rfl
@[simp] theorem State.bump_pages (bank subject index n : Nat) : (s.bump bank subject index n).pages = s.pages := rfl
@[simp] theorem State.bump_tables (bank subject index n : Nat) : (s.bump bank subject index n).tables = s.tables := rfl
@[simp] theorem State.bump_own (bank subject index n : Nat) : (s.bump bank subject index n).own = s.own := rfl
@[simp] theorem State.bump_clock (bank subject index n : Nat) : (s.bump bank subject index n).clock = s.clock := rfl
@[simp] theorem State.bump_slots (bank subject index n : Nat) : (s.bump bank subject index n).slots = s.slots := rfl
@[simp] theorem State.bump_nextSlot (bank subject index n : Nat) : (s.bump bank subject index n).nextSlot = s.nextSlot := rfl
@[simp] theorem State.bump_pageWaits (bank subject index n : Nat) : (s.bump bank subject index n).pageWaits = s.pageWaits := rfl
@[simp] theorem State.bump_pageMore (bank subject index n : Nat) : (s.bump bank subject index n).pageMore = s.pageMore := rfl
@[simp] theorem State.bump_parts (bank subject index n : Nat) : (s.bump bank subject index n).parts = s.parts := rfl
@[simp] theorem State.bump_queues (bank subject index n : Nat) : (s.bump bank subject index n).queues = s.queues := rfl
@[simp] theorem State.bump_launches (bank subject index n : Nat) : (s.bump bank subject index n).launches = s.launches := rfl
@[simp] theorem State.bump_flues (bank subject index n : Nat) : (s.bump bank subject index n).flues = s.flues := rfl
@[simp] theorem State.bump_slices (bank subject index n : Nat) : (s.bump bank subject index n).slices = s.slices := rfl
@[simp] theorem State.bump_grants (bank subject index n : Nat) : (s.bump bank subject index n).grants = s.grants := rfl
@[simp] theorem State.bump_groups (bank subject index n : Nat) : (s.bump bank subject index n).groups = s.groups := rfl
@[simp] theorem State.bump_threads (bank subject index n : Nat) : (s.bump bank subject index n).threads = s.threads := rfl
@[simp] theorem State.bump_grates (bank subject index n : Nat) : (s.bump bank subject index n).grates = s.grates := rfl
@[simp] theorem State.bump_vreg (bank subject index n : Nat) : (s.bump bank subject index n).vreg = s.vreg := rfl
@[simp] theorem State.bump_preg (bank subject index n : Nat) : (s.bump bank subject index n).preg = s.preg := rfl
@[simp] theorem State.bump_ureg (bank subject index n : Nat) : (s.bump bank subject index n).ureg = s.ureg := rfl
@[simp] theorem State.bump_treg (bank subject index n : Nat) : (s.bump bank subject index n).treg = s.treg := rfl
@[simp] theorem State.bump_pinreg (bank subject index n : Nat) : (s.bump bank subject index n).pinreg = s.pinreg := rfl
@[simp] theorem State.bump_pinDir (bank subject index n : Nat) : (s.bump bank subject index n).pinDir = s.pinDir := rfl
@[simp] theorem State.bump_accs (bank subject index n : Nat) : (s.bump bank subject index n).accs = s.accs := rfl
@[simp] theorem State.bump_planesA (bank subject index n : Nat) : (s.bump bank subject index n).planesA = s.planesA := rfl
@[simp] theorem State.bump_planesS (bank subject index n : Nat) : (s.bump bank subject index n).planesS = s.planesS := rfl
@[simp] theorem State.bump_fills (bank subject index n : Nat) : (s.bump bank subject index n).fills = s.fills := rfl
@[simp] theorem State.bump_stores (bank subject index n : Nat) : (s.bump bank subject index n).stores = s.stores := rfl
@[simp] theorem State.bump_colls (bank subject index n : Nat) : (s.bump bank subject index n).colls = s.colls := rfl
@[simp] theorem State.bump_tloads (bank subject index n : Nat) : (s.bump bank subject index n).tloads = s.tloads := rfl
@[simp] theorem State.bump_matq (bank subject index n : Nat) : (s.bump bank subject index n).matq = s.matq := rfl
@[simp] theorem State.bump_searches (bank subject index n : Nat) : (s.bump bank subject index n).searches = s.searches := rfl
@[simp] theorem State.bump_sigrds (bank subject index n : Nat) : (s.bump bank subject index n).sigrds = s.sigrds := rfl
@[simp] theorem State.bump_stops (bank subject index n : Nat) : (s.bump bank subject index n).stops = s.stops := rfl
@[simp] theorem State.bump_bars (bank subject index n : Nat) : (s.bump bank subject index n).bars = s.bars := rfl
@[simp] theorem State.bump_ctrs (bank subject index n : Nat) : (s.bump bank subject index n).ctrs = s.ctrs.putZ 0 (ctrNo bank subject index)
      (s.ctrs.getD (ctrNo bank subject index) 0 + BitVec.ofNat 64 n) := rfl
@[simp] theorem State.bump_lcb (bank subject index n : Nat) : (s.bump bank subject index n).lcb = s.lcb := rfl
@[simp] theorem State.bump_issued (bank subject index n : Nat) : (s.bump bank subject index n).issued = s.issued := rfl
@[simp] theorem State.bump_refCount (bank subject index n : Nat) : (s.bump bank subject index n).refCount = s.refCount := rfl
@[simp] theorem State.bump_coreCycle (bank subject index n : Nat) : (s.bump bank subject index n).coreCycle = s.coreCycle := rfl
@[simp] theorem State.bump_traceSel (bank subject index n : Nat) : (s.bump bank subject index n).traceSel = s.traceSel := rfl
@[simp] theorem State.bump_stamp (bank subject index n : Nat) : (s.bump bank subject index n).stamp = s.stamp := rfl
@[simp] theorem State.bump_agenda (bank subject index n : Nat) : (s.bump bank subject index n).agenda = s.agenda := rfl
@[simp] theorem State.bump_cur (bank subject index n : Nat) : (s.bump bank subject index n).cur = s.cur := rfl

/-! ## State.addFill -/

@[simp] theorem State.addFill_pkg (f : Fill) : (s.addFill f).pkg = s.pkg := rfl
@[simp] theorem State.addFill_mem (f : Fill) : (s.addFill f).mem = s.mem := rfl
@[simp] theorem State.addFill_opbuf (f : Fill) : (s.addFill f).opbuf = s.opbuf := rfl
@[simp] theorem State.addFill_poison (f : Fill) : (s.addFill f).poison = s.poison := rfl
@[simp] theorem State.addFill_fullUnits (f : Fill) : (s.addFill f).fullUnits = s.fullUnits := rfl
@[simp] theorem State.addFill_pages (f : Fill) : (s.addFill f).pages = s.pages := rfl
@[simp] theorem State.addFill_tables (f : Fill) : (s.addFill f).tables = s.tables := rfl
@[simp] theorem State.addFill_own (f : Fill) : (s.addFill f).own = s.own := rfl
@[simp] theorem State.addFill_clock (f : Fill) : (s.addFill f).clock = s.clock := rfl
@[simp] theorem State.addFill_slots (f : Fill) : (s.addFill f).slots = s.slots := rfl
@[simp] theorem State.addFill_nextSlot (f : Fill) : (s.addFill f).nextSlot = s.nextSlot := rfl
@[simp] theorem State.addFill_pageWaits (f : Fill) : (s.addFill f).pageWaits = s.pageWaits := rfl
@[simp] theorem State.addFill_pageMore (f : Fill) : (s.addFill f).pageMore = s.pageMore := rfl
@[simp] theorem State.addFill_parts (f : Fill) : (s.addFill f).parts = s.parts := rfl
@[simp] theorem State.addFill_queues (f : Fill) : (s.addFill f).queues = s.queues := rfl
@[simp] theorem State.addFill_launches (f : Fill) : (s.addFill f).launches = s.launches := rfl
@[simp] theorem State.addFill_flues (f : Fill) : (s.addFill f).flues = s.flues := rfl
@[simp] theorem State.addFill_slices (f : Fill) : (s.addFill f).slices = s.slices := rfl
@[simp] theorem State.addFill_grants (f : Fill) : (s.addFill f).grants = s.grants := rfl
@[simp] theorem State.addFill_groups (f : Fill) : (s.addFill f).groups = s.groups := rfl
@[simp] theorem State.addFill_threads (f : Fill) : (s.addFill f).threads = s.threads := rfl
@[simp] theorem State.addFill_grates (f : Fill) : (s.addFill f).grates = s.grates := rfl
@[simp] theorem State.addFill_vreg (f : Fill) : (s.addFill f).vreg = s.vreg := rfl
@[simp] theorem State.addFill_preg (f : Fill) : (s.addFill f).preg = s.preg := rfl
@[simp] theorem State.addFill_ureg (f : Fill) : (s.addFill f).ureg = s.ureg := rfl
@[simp] theorem State.addFill_treg (f : Fill) : (s.addFill f).treg = s.treg := rfl
@[simp] theorem State.addFill_pinreg (f : Fill) : (s.addFill f).pinreg = s.pinreg := rfl
@[simp] theorem State.addFill_pinDir (f : Fill) : (s.addFill f).pinDir = s.pinDir := rfl
@[simp] theorem State.addFill_accs (f : Fill) : (s.addFill f).accs = s.accs := rfl
@[simp] theorem State.addFill_planesA (f : Fill) : (s.addFill f).planesA = s.planesA := rfl
@[simp] theorem State.addFill_planesS (f : Fill) : (s.addFill f).planesS = s.planesS := rfl
@[simp] theorem State.addFill_fills (f : Fill) : (s.addFill f).fills = s.fills.put s.stamp f := rfl
@[simp] theorem State.addFill_stores (f : Fill) : (s.addFill f).stores = s.stores := rfl
@[simp] theorem State.addFill_colls (f : Fill) : (s.addFill f).colls = s.colls := rfl
@[simp] theorem State.addFill_tloads (f : Fill) : (s.addFill f).tloads = s.tloads := rfl
@[simp] theorem State.addFill_matq (f : Fill) : (s.addFill f).matq = s.matq := rfl
@[simp] theorem State.addFill_searches (f : Fill) : (s.addFill f).searches = s.searches := rfl
@[simp] theorem State.addFill_sigrds (f : Fill) : (s.addFill f).sigrds = s.sigrds := rfl
@[simp] theorem State.addFill_stops (f : Fill) : (s.addFill f).stops = s.stops := rfl
@[simp] theorem State.addFill_bars (f : Fill) : (s.addFill f).bars = s.bars := rfl
@[simp] theorem State.addFill_ctrs (f : Fill) : (s.addFill f).ctrs = s.ctrs := rfl
@[simp] theorem State.addFill_lcb (f : Fill) : (s.addFill f).lcb = s.lcb := rfl
@[simp] theorem State.addFill_issued (f : Fill) : (s.addFill f).issued = s.issued := rfl
@[simp] theorem State.addFill_refCount (f : Fill) : (s.addFill f).refCount = s.refCount := rfl
@[simp] theorem State.addFill_coreCycle (f : Fill) : (s.addFill f).coreCycle = s.coreCycle := rfl
@[simp] theorem State.addFill_traceSel (f : Fill) : (s.addFill f).traceSel = s.traceSel := rfl
@[simp] theorem State.addFill_stamp (f : Fill) : (s.addFill f).stamp = s.stamp + 1 := rfl
@[simp] theorem State.addFill_agenda (f : Fill) : (s.addFill f).agenda = s.agenda := rfl
@[simp] theorem State.addFill_cur (f : Fill) : (s.addFill f).cur = s.cur := rfl

/-! ## State.endStore -/

@[simp] theorem State.endStore_pkg (id : Nat) : (s.endStore id).pkg = s.pkg := rfl
@[simp] theorem State.endStore_mem (id : Nat) : (s.endStore id).mem = s.mem := rfl
@[simp] theorem State.endStore_opbuf (id : Nat) : (s.endStore id).opbuf = s.opbuf := rfl
@[simp] theorem State.endStore_poison (id : Nat) : (s.endStore id).poison = s.poison := rfl
@[simp] theorem State.endStore_fullUnits (id : Nat) : (s.endStore id).fullUnits = s.fullUnits := rfl
@[simp] theorem State.endStore_pages (id : Nat) : (s.endStore id).pages = s.pages := rfl
@[simp] theorem State.endStore_tables (id : Nat) : (s.endStore id).tables = s.tables := rfl
@[simp] theorem State.endStore_own (id : Nat) : (s.endStore id).own = s.own := rfl
@[simp] theorem State.endStore_clock (id : Nat) : (s.endStore id).clock = s.clock := rfl
@[simp] theorem State.endStore_slots (id : Nat) : (s.endStore id).slots = s.slots := rfl
@[simp] theorem State.endStore_nextSlot (id : Nat) : (s.endStore id).nextSlot = s.nextSlot := rfl
@[simp] theorem State.endStore_pageWaits (id : Nat) : (s.endStore id).pageWaits = s.pageWaits := rfl
@[simp] theorem State.endStore_pageMore (id : Nat) : (s.endStore id).pageMore = s.pageMore := rfl
@[simp] theorem State.endStore_parts (id : Nat) : (s.endStore id).parts = s.parts := rfl
@[simp] theorem State.endStore_queues (id : Nat) : (s.endStore id).queues = s.queues := rfl
@[simp] theorem State.endStore_launches (id : Nat) : (s.endStore id).launches = s.launches := rfl
@[simp] theorem State.endStore_flues (id : Nat) : (s.endStore id).flues = s.flues := rfl
@[simp] theorem State.endStore_slices (id : Nat) : (s.endStore id).slices = s.slices := rfl
@[simp] theorem State.endStore_grants (id : Nat) : (s.endStore id).grants = s.grants := rfl
@[simp] theorem State.endStore_groups (id : Nat) : (s.endStore id).groups = s.groups := rfl
@[simp] theorem State.endStore_threads (id : Nat) : (s.endStore id).threads = s.threads := rfl
@[simp] theorem State.endStore_grates (id : Nat) : (s.endStore id).grates = s.grates := rfl
@[simp] theorem State.endStore_vreg (id : Nat) : (s.endStore id).vreg = s.vreg := rfl
@[simp] theorem State.endStore_preg (id : Nat) : (s.endStore id).preg = s.preg := rfl
@[simp] theorem State.endStore_ureg (id : Nat) : (s.endStore id).ureg = s.ureg := rfl
@[simp] theorem State.endStore_treg (id : Nat) : (s.endStore id).treg = s.treg := rfl
@[simp] theorem State.endStore_pinreg (id : Nat) : (s.endStore id).pinreg = s.pinreg := rfl
@[simp] theorem State.endStore_pinDir (id : Nat) : (s.endStore id).pinDir = s.pinDir := rfl
@[simp] theorem State.endStore_accs (id : Nat) : (s.endStore id).accs = s.accs := rfl
@[simp] theorem State.endStore_planesA (id : Nat) : (s.endStore id).planesA = s.planesA := rfl
@[simp] theorem State.endStore_planesS (id : Nat) : (s.endStore id).planesS = s.planesS := rfl
@[simp] theorem State.endStore_fills (id : Nat) : (s.endStore id).fills = s.fills := rfl
@[simp] theorem State.endStore_stores (id : Nat) : (s.endStore id).stores = s.stores.erase id := rfl
@[simp] theorem State.endStore_colls (id : Nat) : (s.endStore id).colls = s.colls := rfl
@[simp] theorem State.endStore_tloads (id : Nat) : (s.endStore id).tloads = s.tloads := rfl
@[simp] theorem State.endStore_matq (id : Nat) : (s.endStore id).matq = s.matq := rfl
@[simp] theorem State.endStore_searches (id : Nat) : (s.endStore id).searches = s.searches := rfl
@[simp] theorem State.endStore_sigrds (id : Nat) : (s.endStore id).sigrds = s.sigrds := rfl
@[simp] theorem State.endStore_stops (id : Nat) : (s.endStore id).stops = s.stops := rfl
@[simp] theorem State.endStore_bars (id : Nat) : (s.endStore id).bars = s.bars := rfl
@[simp] theorem State.endStore_ctrs (id : Nat) : (s.endStore id).ctrs = s.ctrs := rfl
@[simp] theorem State.endStore_lcb (id : Nat) : (s.endStore id).lcb = s.lcb := rfl
@[simp] theorem State.endStore_issued (id : Nat) : (s.endStore id).issued = s.issued := rfl
@[simp] theorem State.endStore_refCount (id : Nat) : (s.endStore id).refCount = s.refCount := rfl
@[simp] theorem State.endStore_coreCycle (id : Nat) : (s.endStore id).coreCycle = s.coreCycle := rfl
@[simp] theorem State.endStore_traceSel (id : Nat) : (s.endStore id).traceSel = s.traceSel := rfl
@[simp] theorem State.endStore_stamp (id : Nat) : (s.endStore id).stamp = s.stamp := rfl
@[simp] theorem State.endStore_agenda (id : Nat) : (s.endStore id).agenda = s.agenda := rfl
@[simp] theorem State.endStore_cur (id : Nat) : (s.endStore id).cur = s.cur := rfl

/-! ## State.toWait -/

@[simp] theorem State.toWait_pkg (tid : Nat) (w : Wait) : (s.toWait tid w).pkg = s.pkg := rfl
@[simp] theorem State.toWait_mem (tid : Nat) (w : Wait) : (s.toWait tid w).mem = s.mem := rfl
@[simp] theorem State.toWait_opbuf (tid : Nat) (w : Wait) : (s.toWait tid w).opbuf = s.opbuf := rfl
@[simp] theorem State.toWait_poison (tid : Nat) (w : Wait) : (s.toWait tid w).poison = s.poison := rfl
@[simp] theorem State.toWait_fullUnits (tid : Nat) (w : Wait) : (s.toWait tid w).fullUnits = s.fullUnits := rfl
@[simp] theorem State.toWait_pages (tid : Nat) (w : Wait) : (s.toWait tid w).pages = s.pages := rfl
@[simp] theorem State.toWait_tables (tid : Nat) (w : Wait) : (s.toWait tid w).tables = s.tables := rfl
@[simp] theorem State.toWait_own (tid : Nat) (w : Wait) : (s.toWait tid w).own = s.own := rfl
@[simp] theorem State.toWait_clock (tid : Nat) (w : Wait) : (s.toWait tid w).clock = s.clock := rfl
@[simp] theorem State.toWait_slots (tid : Nat) (w : Wait) : (s.toWait tid w).slots = s.slots := rfl
@[simp] theorem State.toWait_nextSlot (tid : Nat) (w : Wait) : (s.toWait tid w).nextSlot = s.nextSlot := rfl
@[simp] theorem State.toWait_pageWaits (tid : Nat) (w : Wait) : (s.toWait tid w).pageWaits = s.pageWaits := rfl
@[simp] theorem State.toWait_pageMore (tid : Nat) (w : Wait) : (s.toWait tid w).pageMore = s.pageMore := rfl
@[simp] theorem State.toWait_parts (tid : Nat) (w : Wait) : (s.toWait tid w).parts = s.parts := rfl
@[simp] theorem State.toWait_queues (tid : Nat) (w : Wait) : (s.toWait tid w).queues = s.queues := rfl
@[simp] theorem State.toWait_launches (tid : Nat) (w : Wait) : (s.toWait tid w).launches = s.launches := rfl
@[simp] theorem State.toWait_flues (tid : Nat) (w : Wait) : (s.toWait tid w).flues = s.flues := rfl
@[simp] theorem State.toWait_slices (tid : Nat) (w : Wait) : (s.toWait tid w).slices = s.slices := rfl
@[simp] theorem State.toWait_grants (tid : Nat) (w : Wait) : (s.toWait tid w).grants = s.grants := rfl
@[simp] theorem State.toWait_groups (tid : Nat) (w : Wait) : (s.toWait tid w).groups = s.groups := rfl
@[simp] theorem State.toWait_threads (tid : Nat) (w : Wait) : (s.toWait tid w).threads = s.threads.upd tid (fun t => { t with st := .waiting w }) := rfl
@[simp] theorem State.toWait_grates (tid : Nat) (w : Wait) : (s.toWait tid w).grates = s.grates := rfl
@[simp] theorem State.toWait_vreg (tid : Nat) (w : Wait) : (s.toWait tid w).vreg = s.vreg := rfl
@[simp] theorem State.toWait_preg (tid : Nat) (w : Wait) : (s.toWait tid w).preg = s.preg := rfl
@[simp] theorem State.toWait_ureg (tid : Nat) (w : Wait) : (s.toWait tid w).ureg = s.ureg := rfl
@[simp] theorem State.toWait_treg (tid : Nat) (w : Wait) : (s.toWait tid w).treg = s.treg := rfl
@[simp] theorem State.toWait_pinreg (tid : Nat) (w : Wait) : (s.toWait tid w).pinreg = s.pinreg := rfl
@[simp] theorem State.toWait_pinDir (tid : Nat) (w : Wait) : (s.toWait tid w).pinDir = s.pinDir := rfl
@[simp] theorem State.toWait_accs (tid : Nat) (w : Wait) : (s.toWait tid w).accs = s.accs := rfl
@[simp] theorem State.toWait_planesA (tid : Nat) (w : Wait) : (s.toWait tid w).planesA = s.planesA := rfl
@[simp] theorem State.toWait_planesS (tid : Nat) (w : Wait) : (s.toWait tid w).planesS = s.planesS := rfl
@[simp] theorem State.toWait_fills (tid : Nat) (w : Wait) : (s.toWait tid w).fills = s.fills := rfl
@[simp] theorem State.toWait_stores (tid : Nat) (w : Wait) : (s.toWait tid w).stores = s.stores := rfl
@[simp] theorem State.toWait_colls (tid : Nat) (w : Wait) : (s.toWait tid w).colls = s.colls := rfl
@[simp] theorem State.toWait_tloads (tid : Nat) (w : Wait) : (s.toWait tid w).tloads = s.tloads := rfl
@[simp] theorem State.toWait_matq (tid : Nat) (w : Wait) : (s.toWait tid w).matq = s.matq := rfl
@[simp] theorem State.toWait_searches (tid : Nat) (w : Wait) : (s.toWait tid w).searches = s.searches := rfl
@[simp] theorem State.toWait_sigrds (tid : Nat) (w : Wait) : (s.toWait tid w).sigrds = s.sigrds := rfl
@[simp] theorem State.toWait_stops (tid : Nat) (w : Wait) : (s.toWait tid w).stops = s.stops := rfl
@[simp] theorem State.toWait_bars (tid : Nat) (w : Wait) : (s.toWait tid w).bars = s.bars := rfl
@[simp] theorem State.toWait_ctrs (tid : Nat) (w : Wait) : (s.toWait tid w).ctrs = s.ctrs := rfl
@[simp] theorem State.toWait_lcb (tid : Nat) (w : Wait) : (s.toWait tid w).lcb = s.lcb := rfl
@[simp] theorem State.toWait_issued (tid : Nat) (w : Wait) : (s.toWait tid w).issued = s.issued := rfl
@[simp] theorem State.toWait_refCount (tid : Nat) (w : Wait) : (s.toWait tid w).refCount = s.refCount := rfl
@[simp] theorem State.toWait_coreCycle (tid : Nat) (w : Wait) : (s.toWait tid w).coreCycle = s.coreCycle := rfl
@[simp] theorem State.toWait_traceSel (tid : Nat) (w : Wait) : (s.toWait tid w).traceSel = s.traceSel := rfl
@[simp] theorem State.toWait_stamp (tid : Nat) (w : Wait) : (s.toWait tid w).stamp = s.stamp := rfl
@[simp] theorem State.toWait_agenda (tid : Nat) (w : Wait) : (s.toWait tid w).agenda = s.agenda := rfl
@[simp] theorem State.toWait_cur (tid : Nat) (w : Wait) : (s.toWait tid w).cur = s.cur := rfl

/-! ## State.unpoison -/

@[simp] theorem State.unpoison_pkg (pa n : Nat) : (s.unpoison pa n).pkg = s.pkg := rfl
@[simp] theorem State.unpoison_mem (pa n : Nat) : (s.unpoison pa n).mem = s.mem := rfl
@[simp] theorem State.unpoison_opbuf (pa n : Nat) : (s.unpoison pa n).opbuf = s.opbuf := rfl
@[simp] theorem State.unpoison_poison (pa n : Nat) : (s.unpoison pa n).poison = s.poison.filter (fun k => !(pa ≤ 32 * k && 32 * k + 32 ≤ pa + n)) := rfl
@[simp] theorem State.unpoison_fullUnits (pa n : Nat) : (s.unpoison pa n).fullUnits = s.fullUnits := rfl
@[simp] theorem State.unpoison_pages (pa n : Nat) : (s.unpoison pa n).pages = s.pages := rfl
@[simp] theorem State.unpoison_tables (pa n : Nat) : (s.unpoison pa n).tables = s.tables := rfl
@[simp] theorem State.unpoison_own (pa n : Nat) : (s.unpoison pa n).own = s.own := rfl
@[simp] theorem State.unpoison_clock (pa n : Nat) : (s.unpoison pa n).clock = s.clock := rfl
@[simp] theorem State.unpoison_slots (pa n : Nat) : (s.unpoison pa n).slots = s.slots := rfl
@[simp] theorem State.unpoison_nextSlot (pa n : Nat) : (s.unpoison pa n).nextSlot = s.nextSlot := rfl
@[simp] theorem State.unpoison_pageWaits (pa n : Nat) : (s.unpoison pa n).pageWaits = s.pageWaits := rfl
@[simp] theorem State.unpoison_pageMore (pa n : Nat) : (s.unpoison pa n).pageMore = s.pageMore := rfl
@[simp] theorem State.unpoison_parts (pa n : Nat) : (s.unpoison pa n).parts = s.parts := rfl
@[simp] theorem State.unpoison_queues (pa n : Nat) : (s.unpoison pa n).queues = s.queues := rfl
@[simp] theorem State.unpoison_launches (pa n : Nat) : (s.unpoison pa n).launches = s.launches := rfl
@[simp] theorem State.unpoison_flues (pa n : Nat) : (s.unpoison pa n).flues = s.flues := rfl
@[simp] theorem State.unpoison_slices (pa n : Nat) : (s.unpoison pa n).slices = s.slices := rfl
@[simp] theorem State.unpoison_grants (pa n : Nat) : (s.unpoison pa n).grants = s.grants := rfl
@[simp] theorem State.unpoison_groups (pa n : Nat) : (s.unpoison pa n).groups = s.groups := rfl
@[simp] theorem State.unpoison_threads (pa n : Nat) : (s.unpoison pa n).threads = s.threads := rfl
@[simp] theorem State.unpoison_grates (pa n : Nat) : (s.unpoison pa n).grates = s.grates := rfl
@[simp] theorem State.unpoison_vreg (pa n : Nat) : (s.unpoison pa n).vreg = s.vreg := rfl
@[simp] theorem State.unpoison_preg (pa n : Nat) : (s.unpoison pa n).preg = s.preg := rfl
@[simp] theorem State.unpoison_ureg (pa n : Nat) : (s.unpoison pa n).ureg = s.ureg := rfl
@[simp] theorem State.unpoison_treg (pa n : Nat) : (s.unpoison pa n).treg = s.treg := rfl
@[simp] theorem State.unpoison_pinreg (pa n : Nat) : (s.unpoison pa n).pinreg = s.pinreg := rfl
@[simp] theorem State.unpoison_pinDir (pa n : Nat) : (s.unpoison pa n).pinDir = s.pinDir := rfl
@[simp] theorem State.unpoison_accs (pa n : Nat) : (s.unpoison pa n).accs = s.accs := rfl
@[simp] theorem State.unpoison_planesA (pa n : Nat) : (s.unpoison pa n).planesA = s.planesA := rfl
@[simp] theorem State.unpoison_planesS (pa n : Nat) : (s.unpoison pa n).planesS = s.planesS := rfl
@[simp] theorem State.unpoison_fills (pa n : Nat) : (s.unpoison pa n).fills = s.fills := rfl
@[simp] theorem State.unpoison_stores (pa n : Nat) : (s.unpoison pa n).stores = s.stores := rfl
@[simp] theorem State.unpoison_colls (pa n : Nat) : (s.unpoison pa n).colls = s.colls := rfl
@[simp] theorem State.unpoison_tloads (pa n : Nat) : (s.unpoison pa n).tloads = s.tloads := rfl
@[simp] theorem State.unpoison_matq (pa n : Nat) : (s.unpoison pa n).matq = s.matq := rfl
@[simp] theorem State.unpoison_searches (pa n : Nat) : (s.unpoison pa n).searches = s.searches := rfl
@[simp] theorem State.unpoison_sigrds (pa n : Nat) : (s.unpoison pa n).sigrds = s.sigrds := rfl
@[simp] theorem State.unpoison_stops (pa n : Nat) : (s.unpoison pa n).stops = s.stops := rfl
@[simp] theorem State.unpoison_bars (pa n : Nat) : (s.unpoison pa n).bars = s.bars := rfl
@[simp] theorem State.unpoison_ctrs (pa n : Nat) : (s.unpoison pa n).ctrs = s.ctrs := rfl
@[simp] theorem State.unpoison_lcb (pa n : Nat) : (s.unpoison pa n).lcb = s.lcb := rfl
@[simp] theorem State.unpoison_issued (pa n : Nat) : (s.unpoison pa n).issued = s.issued := rfl
@[simp] theorem State.unpoison_refCount (pa n : Nat) : (s.unpoison pa n).refCount = s.refCount := rfl
@[simp] theorem State.unpoison_coreCycle (pa n : Nat) : (s.unpoison pa n).coreCycle = s.coreCycle := rfl
@[simp] theorem State.unpoison_traceSel (pa n : Nat) : (s.unpoison pa n).traceSel = s.traceSel := rfl
@[simp] theorem State.unpoison_stamp (pa n : Nat) : (s.unpoison pa n).stamp = s.stamp := rfl
@[simp] theorem State.unpoison_agenda (pa n : Nat) : (s.unpoison pa n).agenda = s.agenda := rfl
@[simp] theorem State.unpoison_cur (pa n : Nat) : (s.unpoison pa n).cur = s.cur := rfl

end Sys2Proof.Machine
end

