-- ==== Sys2Proof/Laws/Table.lean ====
section
/-! SUPPORT. Laws of the sparse tables: reading after writing, and that every operation keeps the canonical form. -/
namespace Sys2Proof

/-! ## Reading after writing -/

@[simp] theorem Tab.find_nil {α : Type} (k : Nat) : Tab.find ([] : Tab α) k = none := rfl

theorem Tab.find_cons {α : Type} (j k : Nat) (v : α) (r : Tab α) :
    Tab.find ((j, v) :: r) k = if j = k then some v else Tab.find r k := rfl

@[simp] theorem Tab.find_put_self {α : Type} (t : Tab α) (k : Nat) (v : α) : (Tab.put t k v).find k = some v := by
  induction t with
  | nil => simp [Tab.put, Tab.find]
  | cons e r ih =>
    obtain ⟨j, w⟩ := e
    unfold Tab.put
    split
    · simp [Tab.find]
    · split
      · simp [Tab.find]
      · simp [Tab.find, *]

theorem Tab.find_put_ne {α : Type} (t : Tab α) (k : Nat) (v : α) (k' : Nat) (h : k' ≠ k) :
    (Tab.put t k v).find k' = t.find k' := by
  induction t with
  | nil => simp [Tab.put, Tab.find, Ne.symm h]
  | cons e r ih =>
    obtain ⟨j, w⟩ := e
    unfold Tab.put
    split
    · subst_vars; simp [Tab.find, Ne.symm h]
    · split
      · simp [Tab.find, Ne.symm h]
      · simp [Tab.find, ih]

theorem Tab.find_put {α : Type} (t : Tab α) (k : Nat) (v : α) (k' : Nat) :
    (Tab.put t k v).find k' = if k' = k then some v else t.find k' := by
  split
  · subst_vars; simp
  · exact Tab.find_put_ne t k v k' ‹_›

@[simp] theorem Tab.find_erase_self {α : Type} (t : Tab α) (k : Nat) : (Tab.erase t k).find k = none := by
  induction t with
  | nil => rfl
  | cons e r ih =>
    obtain ⟨j, w⟩ := e
    by_cases h : j = k
    · simpa [Tab.erase, h] using ih
    · simpa [Tab.erase, h, Tab.find] using ih

theorem Tab.find_erase_ne {α : Type} (t : Tab α) (k k' : Nat) (h : k' ≠ k) : (Tab.erase t k).find k' = t.find k' := by
  induction t with
  | nil => rfl
  | cons e r ih =>
    obtain ⟨j, w⟩ := e
    by_cases hj : j = k
    · subst hj; simpa [Tab.erase, Tab.find, Ne.symm h] using ih
    · simp only [Tab.erase, Tab.find] at ih ⊢
      simp [hj, Tab.find, ih]

@[simp] theorem Tab.getD_nil {α : Type} (k : Nat) (d : α) : Tab.getD ([] : Tab α) k d = d := rfl

@[simp] theorem Tab.getD_put_self {α : Type} (t : Tab α) (k : Nat) (v d : α) : (Tab.put t k v).getD k d = v := by
  simp [Tab.getD]

theorem Tab.getD_put_ne {α : Type} (t : Tab α) (k : Nat) (v d : α) (k' : Nat) (h : k' ≠ k) :
    (Tab.put t k v).getD k' d = t.getD k' d := by
  simp [Tab.getD, Tab.find_put_ne t k v k' h]

@[simp] theorem Tab.getD_putZ_self {α : Type} [DecidableEq α] (z : α) (t : Tab α) (k : Nat) (v : α) :
    (Tab.putZ z t k v).getD k z = v := by
  unfold Tab.putZ
  split
  · subst_vars; simp [Tab.getD]
  · simp

theorem Tab.getD_putZ_ne {α : Type} [DecidableEq α] (z : α) (t : Tab α) (k : Nat) (v d : α) (k' : Nat) (h : k' ≠ k) :
    (Tab.putZ z t k v).getD k' d = t.getD k' d := by
  unfold Tab.putZ
  split
  · simp [Tab.getD, Tab.find_erase_ne t k k' h]
  · exact Tab.getD_put_ne t k v d k' h

theorem Tab.getD_putZ {α : Type} [DecidableEq α] (z : α) (t : Tab α) (k : Nat) (v : α) (k' : Nat) :
    (Tab.putZ z t k v).getD k' z = if k' = k then v else t.getD k' z := by
  split
  · subst_vars; simp
  · exact Tab.getD_putZ_ne z t k v z k' ‹_›

theorem Tab.find_upd {α : Type} (t : Tab α) (k : Nat) (f : α → α) (k' : Nat) :
    (Tab.upd t k f).find k' = if k' = k then (t.find k).map f else t.find k' := by
  unfold Tab.upd
  split
  · next v h => rw [Tab.find_put]; simp [h]
  · next h => split <;> simp_all

@[simp] theorem Tab.find_upd_self {α : Type} (t : Tab α) (k : Nat) (f : α → α) :
    (Tab.upd t k f).find k = (t.find k).map f := by simp [Tab.find_upd]

theorem Tab.find_upd_ne {α : Type} (t : Tab α) (k : Nat) (f : α → α) (k' : Nat) (h : k' ≠ k) :
    (Tab.upd t k f).find k' = t.find k' := by simp [Tab.find_upd, h]

/-- An update never makes or removes an entry. -/
theorem Tab.isSome_upd {α : Type} (t : Tab α) (k : Nat) (f : α → α) (k' : Nat) :
    ((Tab.upd t k f).find k').isSome = (t.find k').isSome := by
  rw [Tab.find_upd]
  split
  · subst_vars; simp
  · rfl

theorem Tab.find_keep {α : Type} (t : Tab α) (f : Nat → α → Bool) (k : Nat) (h : ∀ v, f k v = true) :
    (Tab.keep t f).find k = t.find k := by
  induction t with
  | nil => rfl
  | cons e r ih =>
    obtain ⟨j, w⟩ := e
    simp only [Tab.keep] at ih ⊢
    by_cases hf : f j w = true
    · simp [hf, Tab.find, ih]
    · have hj : j ≠ k := fun e => hf (e ▸ h w)
      simp [hf, Tab.find, ih, hj]

theorem Tab.find_keep_none {α : Type} (t : Tab α) (f : Nat → α → Bool) (k : Nat) (h : ∀ v, f k v = false) :
    (Tab.keep t f).find k = none := by
  induction t with
  | nil => rfl
  | cons e r ih =>
    obtain ⟨j, w⟩ := e
    simp only [Tab.keep] at ih ⊢
    by_cases hf : f j w = true
    · have hj : j ≠ k := fun e => by simp [e ▸ h w] at hf
      simp [hf, Tab.find, ih, hj]
    · simp [hf, ih]

theorem Tab.find_mapVals {α β : Type} (t : Tab α) (f : α → β) (k : Nat) : (Tab.mapVals t f).find k = (t.find k).map f := by
  induction t with
  | nil => rfl
  | cons e r ih =>
    obtain ⟨j, w⟩ := e
    simp only [Tab.mapVals] at ih ⊢
    by_cases h : j = k <;> simp [Tab.find, h, ih]

/-! ## The canonical form -/

/-- Keys strictly rise, as a proposition over every pair of entries. -/
theorem Tab.sorted_iff {α : Type} (t : Tab α) : t.sorted = true ↔ List.Pairwise (fun a b => a.1 < b.1) t := by
  induction t with
  | nil => simp [Tab.sorted]
  | cons e r ih =>
    obtain ⟨j, w⟩ := e
    cases r with
    | nil => simp [Tab.sorted]
    | cons e' r' =>
      obtain ⟨k, v⟩ := e'
      rw [Tab.sorted, Bool.and_eq_true, ih]
      constructor
      · rintro ⟨h1, h2⟩
        refine List.pairwise_cons.2 ⟨fun x hx => ?_, h2⟩
        rcases List.mem_cons.1 hx with rfl | hx
        · simpa using h1
        · exact Nat.lt_trans (by simpa using h1) ((List.pairwise_cons.1 h2).1 x hx)
      · intro h
        exact ⟨by simpa using (List.pairwise_cons.1 h).1 (k, v) (by simp), (List.pairwise_cons.1 h).2⟩

theorem Tab.mem_put {α : Type} (t : Tab α) (k : Nat) (v : α) (e : Nat × α) (h : e ∈ Tab.put t k v) : e = (k, v) ∨ e ∈ t := by
  induction t with
  | nil => simp [Tab.put] at h; exact .inl h
  | cons x r ih =>
    obtain ⟨j, w⟩ := x
    unfold Tab.put at h
    split at h
    · rcases List.mem_cons.1 h with h | h
      · exact .inl h
      · exact .inr (List.mem_cons_of_mem _ h)
    · split at h
      · rcases List.mem_cons.1 h with h | h
        · exact .inl h
        · exact .inr h
      · rcases List.mem_cons.1 h with h | h
        · exact .inr (h ▸ List.mem_cons_self ..)
        · rcases ih h with h | h
          · exact .inl h
          · exact .inr (List.mem_cons_of_mem _ h)

theorem Tab.sorted_put {α : Type} (t : Tab α) (k : Nat) (v : α) (h : t.sorted = true) : (Tab.put t k v).sorted = true := by
  rw [Tab.sorted_iff] at h ⊢
  induction t with
  | nil => simp [Tab.put]
  | cons e r ih =>
    obtain ⟨j, w⟩ := e
    obtain ⟨h1, h2⟩ := List.pairwise_cons.1 h
    unfold Tab.put
    split
    · subst_vars; exact List.pairwise_cons.2 ⟨fun x hx => h1 x hx, h2⟩
    · split
      · refine List.pairwise_cons.2 ⟨fun x hx => ?_, h⟩
        rcases List.mem_cons.1 hx with rfl | hx
        · assumption
        · exact Nat.lt_trans ‹k < j› (h1 x hx)
      · refine List.pairwise_cons.2 ⟨fun x hx => ?_, ih h2⟩
        rcases Tab.mem_put r k v x hx with rfl | hx
        · show j < k; omega
        · exact h1 x hx

theorem Tab.sorted_keep {α : Type} (t : Tab α) (f : Nat → α → Bool) (h : t.sorted = true) : (Tab.keep t f).sorted = true := by
  rw [Tab.sorted_iff] at h ⊢
  exact List.Pairwise.filter _ h

theorem Tab.sorted_erase {α : Type} (t : Tab α) (k : Nat) (h : t.sorted = true) : (Tab.erase t k).sorted = true := by
  rw [Tab.sorted_iff] at h ⊢
  exact List.Pairwise.filter _ h

theorem Tab.wf_iff {α : Type} [DecidableEq α] (z : α) (t : Tab α) :
    Tab.wf z t = true ↔ t.sorted = true ∧ ∀ e ∈ t, e.2 ≠ z := by
  simp [Tab.wf]

theorem Tab.wf_nil {α : Type} [DecidableEq α] (z : α) : Tab.wf z ([] : Tab α) = true := rfl

theorem Tab.wf_keep {α : Type} [DecidableEq α] (z : α) (t : Tab α) (f : Nat → α → Bool) (h : Tab.wf z t = true) :
    Tab.wf z (Tab.keep t f) = true := by
  rw [Tab.wf_iff] at h ⊢
  exact ⟨Tab.sorted_keep t f h.1, fun e he => h.2 e (List.mem_filter.1 he).1⟩

theorem Tab.wf_erase {α : Type} [DecidableEq α] (z : α) (t : Tab α) (k : Nat) (h : Tab.wf z t = true) :
    Tab.wf z (Tab.erase t k) = true := by
  rw [Tab.wf_iff] at h ⊢
  exact ⟨Tab.sorted_erase t k h.1, fun e he => h.2 e (List.mem_filter.1 he).1⟩

theorem Tab.wf_putZ {α : Type} [DecidableEq α] (z : α) (t : Tab α) (k : Nat) (v : α) (h : Tab.wf z t = true) :
    Tab.wf z (Tab.putZ z t k v) = true := by
  unfold Tab.putZ
  split
  · exact Tab.wf_erase z t k h
  · rw [Tab.wf_iff] at h ⊢
    refine ⟨Tab.sorted_put t k v h.1, fun e he => ?_⟩
    rcases Tab.mem_put t k v e he with rfl | he
    · assumption
    · exact h.2 e he

/-- Two canonical tables that read alike are equal. -/
theorem Tab.ext_find {α : Type} : ∀ (t u : Tab α), t.sorted = true → u.sorted = true → (∀ k, t.find k = u.find k) → t = u
  | [], [], _, _, _ => rfl
  | [], (j, w) :: r, _, _, h => by simpa [Tab.find] using h j
  | (j, w) :: r, [], _, _, h => by simpa [Tab.find] using h j
  | (j, w) :: r, (k, v) :: q, ht, hu, h => by
    have low : ∀ {β : Type} (i : Nat) (x : β) (l : Tab β) (m : Nat), Tab.sorted ((i, x) :: l) = true → m ≤ i →
        Tab.find l m = none := by
      intro β i x l m hs hm
      obtain ⟨h1, -⟩ := List.pairwise_cons.1 ((Tab.sorted_iff _).1 hs)
      induction l with
      | nil => rfl
      | cons e l ih =>
        obtain ⟨a, b⟩ := e
        have : i < a := h1 (a, b) (by simp)
        rw [Tab.find_cons, if_neg (by omega)]
        refine ih ?_ (fun y hy => h1 y (List.mem_cons_of_mem _ hy))
        have := (Tab.sorted_iff _).1 hs
        exact (Tab.sorted_iff _).2 (List.Pairwise.sublist (List.Sublist.cons_cons _ (List.sublist_cons_self _ _)) this)
    have hj := h j
    have hk := h k
    have ejk : j = k := by
      rcases Nat.lt_trichotomy j k with l | e | l
      · rw [Tab.find_cons, if_pos rfl, Tab.find_cons, if_neg (by omega), low k v q j hu (by omega)] at hj
        exact absurd hj (by simp)
      · exact e
      · rw [Tab.find_cons, if_neg (by omega), Tab.find_cons, if_pos rfl, low j w r k ht (by omega)] at hk
        exact absurd hk (by simp)
    subst ejk
    simp only [Tab.find_cons, if_true] at hj
    injection hj with hj
    subst hj
    have hr := (List.pairwise_cons.1 ((Tab.sorted_iff _).1 ht)).2
    have hq := (List.pairwise_cons.1 ((Tab.sorted_iff _).1 hu)).2
    refine congrArg _ (Tab.ext_find r q ((Tab.sorted_iff _).2 hr) ((Tab.sorted_iff _).2 hq) (fun m => ?_))
    by_cases e : m = j
    · rw [e, low j w r j ht (Nat.le_refl _), low j w q j hu (Nat.le_refl _)]
    · have := h m
      rwa [Tab.find_cons, Tab.find_cons, if_neg (by omega), if_neg (by omega)] at this

end Sys2Proof
end

