-- ==== Sys2Proof/Laws/Memory.lean ====
section
/-! SUPPORT. Laws of physical memory: reading after writing, that every operation keeps the canonical form, and what a store
leaves as it was. -/
namespace Sys2Proof.Machine

/-! ## Bytes and values -/

@[simp] theorem toLE_length : ∀ n x : Nat, (toLE n x).length = n
  | 0, _ => rfl
  | n + 1, x => by simp [toLE, toLE_length n]

/-- Little-endian bytes give their value back, modulo 256^n. -/
theorem leNat_toLE : ∀ n x : Nat, leNat (toLE n x) = x % 256 ^ n
  | 0, x => by simp [toLE, leNat, Nat.mod_one]
  | n + 1, x => by
    have h := leNat_toLE n (x / 256)
    simp only [toLE, leNat, h, BitVec.toNat_ofNat]
    rw [show (256 : Nat) ^ (n + 1) = 256 * 256 ^ n by rw [Nat.pow_succ, Nat.mul_comm], Nat.mod_mul]

/-! ## One byte -/

@[simp] theorem State.rdByte_wrByte_self (s : State) (a : Nat) (b : Byte) : (s.wrByte a b).rdByte a = b := by
  simp [State.rdByte]

theorem State.rdByte_wrByte_ne (s : State) (a x : Nat) (b : Byte) (h : x ≠ a) : (s.wrByte a b).rdByte x = s.rdByte x := by
  simp [State.rdByte, Tab.getD_putZ_ne _ _ _ _ _ _ h]

/-! ## Runs of bytes -/

/-- Outside the bytes it writes, a write leaves every byte. -/
theorem State.rdByte_wrBytes_out (bs : List Byte) : ∀ (s : State) (a x : Nat), x < a ∨ a + bs.length ≤ x →
    (s.wrBytes a bs).rdByte x = s.rdByte x := by
  induction bs with
  | nil => intro s a x _; rfl
  | cons b r ih =>
    intro s a x h
    simp only [List.length_cons] at h
    rw [State.wrBytes, ih _ _ _ (by omega), State.rdByte_wrByte_ne _ _ _ _ (by omega)]

/-- Inside, the bytes written are read. -/
theorem State.rdByte_wrBytes_in (bs : List Byte) : ∀ (s : State) (a i : Nat) (h : i < bs.length),
    (s.wrBytes a bs).rdByte (a + i) = bs[i] := by
  induction bs with
  | nil => intro s a i h; exact absurd h (by simp)
  | cons b r ih =>
    intro s a i h
    cases i with
    | zero => rw [State.wrBytes, Nat.add_zero, State.rdByte_wrBytes_out _ _ _ _ (by omega)]; simp
    | succ i =>
      have := ih (s.wrByte a b) (a + 1) i (by simpa using h)
      rw [State.wrBytes, show a + (i + 1) = a + 1 + i by omega, this]
      rfl

/-- A run of bytes reads as it was written. -/
theorem State.rdBytes_wrBytes (s : State) (a : Nat) (bs : List Byte) : (s.wrBytes a bs).rdBytes a bs.length = bs := by
  unfold State.rdBytes upTo
  refine List.ext_getElem (by simp) (fun i h _ => ?_)
  simp only [List.getElem_map, List.getElem_range]
  exact State.rdByte_wrBytes_in bs s a i (by simpa using h)

/-- A write of bytes changes memory alone. -/
theorem State.wrBytes_eq (bs : List Byte) : ∀ (s : State) (a : Nat), s.wrBytes a bs = { s with mem := (s.wrBytes a bs).mem } := by
  induction bs with
  | nil => intro s a; rfl
  | cons b r ih => intro s a; rw [State.wrBytes, ih]; rfl

/-- Zeroed bytes read zero, and every other byte is as it was. -/
theorem State.rdByte_zeroMem (s : State) (lo hi x : Nat) :
    (s.zeroMem lo hi).rdByte x = if lo ≤ x ∧ x < hi then 0 else s.rdByte x := by
  unfold State.rdByte Tab.getD
  rw [State.zeroMem_mem]
  split
  · rw [Tab.find_keep_none _ _ _ (by intro v; simp; omega)]; rfl
  · rw [Tab.find_keep _ _ _ (by intro v; simp; omega)]

/-! ## The canonical form -/

theorem Memory.wf_wrByte (s : State) (a : Nat) (b : Byte) (h : Memory.wf s.mem = true) : Memory.wf (s.wrByte a b).mem = true :=
  Tab.wf_putZ _ _ _ _ h

theorem Memory.wf_wrBytes (bs : List Byte) : ∀ (s : State) (a : Nat), Memory.wf s.mem = true →
    Memory.wf (s.wrBytes a bs).mem = true := by
  induction bs with
  | nil => intro s a h; exact h
  | cons b r ih => intro s a h; exact ih _ _ (Memory.wf_wrByte s a b h)

theorem Memory.wf_zeroMem (s : State) (lo hi : Nat) (h : Memory.wf s.mem = true) : Memory.wf (s.zeroMem lo hi).mem = true :=
  Tab.wf_keep (0 : Byte) s.mem (fun a _ => a < lo || hi ≤ a) h

theorem Memory.wf_zeroFrame (s : State) (f : Nat) (h : Memory.wf s.mem = true) : Memory.wf (s.zeroFrame f).mem = true :=
  Memory.wf_zeroMem s _ _ h

theorem Memory.wf_store (s : State) (pa : Nat) (bs : List Byte) (h : Memory.wf s.mem = true) :
    Memory.wf (s.store pa bs).mem = true := by
  unfold State.store
  rw [State.unpoison_mem]
  refine Memory.wf_wrBytes bs _ pa ?_
  split
  · dsimp only
    split <;> split
    all_goals first
      | exact Memory.wf_zeroFrame _ _ h
      | exact h
  · exact h

/-- Two canonical memories that read alike are equal. -/
theorem Memory.ext (s t : State) (hs : Memory.wf s.mem = true) (ht : Memory.wf t.mem = true)
    (h : ∀ a, s.rdByte a = t.rdByte a) : s.mem = t.mem := by
  obtain ⟨s1, s2⟩ := (Tab.wf_iff _ _).1 hs
  obtain ⟨t1, t2⟩ := (Tab.wf_iff _ _).1 ht
  have memOf : ∀ (l : Tab Byte) (k : Nat) (v : Byte), l.find k = some v → (k, v) ∈ l := by
    intro l k v hk
    induction l with
    | nil => exact absurd hk (by simp)
    | cons e r ih =>
      obtain ⟨j, w⟩ := e
      rw [Tab.find_cons] at hk
      split at hk
      · injection hk with hk; subst_vars; exact List.mem_cons_self ..
      · exact List.mem_cons_of_mem _ (ih hk)
  refine Tab.ext_find _ _ s1 t1 (fun k => ?_)
  have hk := h k
  unfold State.rdByte Tab.getD at hk
  cases es : Tab.find s.mem k with
  | none => cases et : Tab.find t.mem k with
    | none => rfl
    | some v => exact absurd (by simpa [es, et] using hk.symm) (t2 _ (memOf _ _ _ et))
  | some u => cases et : Tab.find t.mem k with
    | none => exact absurd (by simpa [es, et] using hk) (s2 _ (memOf _ _ _ es))
    | some v => simpa [es, et] using hk

end Sys2Proof.Machine
end

