-- ==== Sys2Proof/Laws/Records.lean ====
section
/-! SUPPORT. What the writes of the device and the trace of a group may change: memory with its ownership and poison marks, bound
queues, partitions and the counts of groups; never a register, a thread, a page or anything in flight. -/
namespace Sys2Proof.Machine

/-- `t` holds every register and everything in flight as `s` does. -/
structure RegsSame (s t : State) : Prop where
  vreg : t.vreg = s.vreg
  preg : t.preg = s.preg
  ureg : t.ureg = s.ureg
  treg : t.treg = s.treg
  pinreg : t.pinreg = s.pinreg
  pinDir : t.pinDir = s.pinDir
  accs : t.accs = s.accs
  planesA : t.planesA = s.planesA
  planesS : t.planesS = s.planesS
  opbuf : t.opbuf = s.opbuf
  fills : t.fills = s.fills
  stores : t.stores = s.stores
  colls : t.colls = s.colls
  tloads : t.tloads = s.tloads
  matq : t.matq = s.matq
  searches : t.searches = s.searches
  sigrds : t.sigrds = s.sigrds
  pages : t.pages = s.pages
  fullUnits : t.fullUnits = s.fullUnits
  cur : t.cur = s.cur

/-- Beside that, threads, launches, counters and the package are the same. -/
structure Recorded (s t : State) : Prop extends RegsSame s t where
  threads : t.threads = s.threads
  launches : t.launches = s.launches
  ctrs : t.ctrs = s.ctrs
  pkg : t.pkg = s.pkg
  stamp : t.stamp = s.stamp
  bars : t.bars = s.bars

theorem RegsSame.refl (s : State) : RegsSame s s := by constructor <;> rfl
theorem RegsSame.trans {s t u : State} (h : RegsSame s t) (k : RegsSame t u) : RegsSame s u := by
  cases h; cases k; constructor <;> simp_all
theorem Recorded.refl (s : State) : Recorded s s := { RegsSame.refl s with threads := rfl, launches := rfl, ctrs := rfl, pkg := rfl, stamp := rfl, bars := rfl }
theorem Recorded.trans {s t u : State} (h : Recorded s t) (k : Recorded t u) : Recorded s u :=
  { h.toRegsSame.trans k.toRegsSame with
    threads := k.threads.trans h.threads, launches := k.launches.trans h.launches, ctrs := k.ctrs.trans h.ctrs,
    pkg := k.pkg.trans h.pkg, stamp := k.stamp.trans h.stamp, bars := k.bars.trans h.bars }

theorem RegsSame.foldl {α : Type} (f : State → α → State) (h : ∀ s a, RegsSame s (f s a)) (l : List α) :
    ∀ s, RegsSame s (l.foldl f s) := by
  induction l with
  | nil => exact RegsSame.refl
  | cons a r ih => exact fun s => (h s a).trans (ih _)
theorem Recorded.foldl {α : Type} (f : State → α → State) (h : ∀ s a, Recorded s (f s a)) (l : List α) :
    ∀ s, Recorded s (l.foldl f s) := by
  induction l with
  | nil => exact Recorded.refl
  | cons a r ih => exact fun s => (h s a).trans (ih _)

/-! ## Writes of the device -/

theorem State.wrBytes_recorded (s : State) (a : Nat) (bs : List Byte) : Recorded s (s.wrBytes a bs) := by
  rw [State.wrBytes_eq]; constructor <;> first | rfl | (constructor <;> rfl)

theorem State.zeroFrame_recorded (s : State) (f : Nat) : Recorded s (s.zeroFrame f) := by
  constructor <;> first | rfl | (constructor <;> rfl)

theorem State.setFrame_recorded (s : State) (f : Nat) (o : Own) : Recorded s (s.setFrame f o) := by
  constructor <;> first | rfl | (constructor <;> rfl)

theorem State.store_recorded (s : State) (pa : Nat) (bs : List Byte) : Recorded s (s.store pa bs) := by
  have up : ∀ t : State, Recorded t (t.unpoison pa bs.length) := fun t => by
    constructor <;> first | rfl | (constructor <;> rfl)
  have low : ∀ t : State, Recorded t ((t.wrBytes pa bs).unpoison pa bs.length) := fun t =>
    (State.wrBytes_recorded t pa bs).trans (up _)
  unfold State.store
  refine Recorded.trans ?_ (low _)
  split
  · dsimp only
    split <;> split
    all_goals first
      | exact (State.zeroFrame_recorded _ _).trans (State.setFrame_recorded _ _ _)
      | exact State.zeroFrame_recorded _ _
      | exact State.setFrame_recorded _ _ _
      | exact Recorded.refl _
  · exact Recorded.refl s

theorem State.updPart_recorded (s : State) (p : Nat) (f : Part → Part) : Recorded s (s.updPart p f) := by
  constructor <;> first | rfl | (constructor <;> rfl)

theorem State.wrByte_recorded (s : State) (a : Nat) (b : Byte) : Recorded s (s.wrByte a b) := by
  constructor <;> first | rfl | (constructor <;> rfl)

theorem State.putImage_recorded (s : State) (pa : Nat) (i : Image) : Recorded s (s.putImage pa i) := by
  have last : ∀ t u : State, Recorded t u → Recorded t { u with poison := u.poison ++ i.poison.map (· + pa / 32) } := fun t u h =>
    h.trans (by constructor <;> first | rfl | (constructor <;> rfl))
  unfold State.putImage
  dsimp only
  split
  · exact last _ _ ((State.zeroFrame_recorded _ _).trans (Recorded.foldl _ (fun _ _ => State.wrByte_recorded _ _ _) _ _))
  · refine last _ _ (Recorded.trans (t := s.zeroMem pa (pa + frameBytes)) ?_ (Recorded.foldl _ (fun _ _ => State.wrByte_recorded _ _ _) _ _))
    constructor <;> first | rfl | (constructor <;> rfl)

theorem State.copyAside_recorded (s t : State) (p f : Nat) (h : s.copyAside p f = some t) : Recorded s t := by
  unfold State.copyAside at h
  split at h
  · split at h
    · injection h with h
      subst h
      exact ((((State.setFrame_recorded _ _ _).trans (State.zeroFrame_recorded _ _)).trans (State.putImage_recorded _ _ _)).trans
        (State.updPart_recorded _ _ _))
    · exact absurd h (by simp)
  · exact absurd h (by simp)

theorem State.asideNow_recorded (s : State) (p f : Nat) : Recorded s (s.asideNow p f) := by
  unfold State.asideNow
  split
  · exact Recorded.refl s
  · split
    · next h => exact State.copyAside_recorded _ _ _ _ h
    · refine Recorded.trans (t := (s.newSlot (s.imageOf (frameAddr f))).2) ?_ (State.updPart_recorded _ _ _)
      constructor <;> first | rfl | (constructor <;> rfl)

/-- A write of the device changes memory, its ownership, and what generations hold, and nothing else. -/
theorem State.devStore_recorded (s : State) (space pa : Nat) (bs : List Byte) : Recorded s (s.devStore space pa bs) := by
  unfold State.devStore
  split
  · exact Recorded.refl s
  · split
    · split
      · exact (State.asideNow_recorded _ _ _).trans (State.store_recorded _ _ _)
      · exact State.store_recorded _ _ _
    · exact State.store_recorded _ _ _

theorem State.storeVa_recorded (s : State) (space va : Nat) (bs : List Byte) : Recorded s (s.storeVa space va bs) := by
  unfold State.storeVa
  generalize flits _ _ = l
  suffices h : ∀ (l : List (List Byte)) (r : State × Nat), Recorded r.1 (l.foldl (fun (r : State × Nat) f =>
      (match r.1.xlate space none r.2 with
        | .leaf pa _ => r.1.devStore space pa f
        | _ => r.1, r.2 + f.length)) r).1 from h l (s, va)
  intro l
  induction l with
  | nil => exact fun r => Recorded.refl r.1
  | cons f l ih =>
    intro r
    refine Recorded.trans ?_ (ih _)
    dsimp only
    split
    · exact State.devStore_recorded _ _ _ _
    · exact Recorded.refl _

theorem State.writeQueue_recorded (s : State) (space handle : Nat) (q : Queue) : Recorded s (s.writeQueue space handle q) := by
  refine Recorded.trans ?_ (State.storeVa_recorded _ _ _ _)
  constructor <;> first | rfl | (constructor <;> rfl)

theorem State.appendNow_recorded (s : State) (space handle : Nat) (q : Queue) (bs : List Byte) :
    Recorded s (s.appendNow space handle q bs) :=
  (State.storeVa_recorded _ _ _ _).trans (State.writeQueue_recorded _ _ _ _)

/-! ## Traces -/

theorem State.setPart_recorded (s : State) (p : Nat) (x : Part) : Recorded s (s.setPart p x) := by
  constructor <;> first | rfl | (constructor <;> rfl)
theorem State.updGroup_recorded (s : State) (g : Nat) (f : Group → Group) : Recorded s (s.updGroup g f) := by
  constructor <;> first | rfl | (constructor <;> rfl)

theorem State.traceRaw_recorded (s : State) (space core slot type : Nat) (body : List Byte) :
    Recorded s (s.traceRaw space core slot type body) := by
  unfold State.traceRaw
  dsimp only
  split
  · exact Recorded.refl s
  · split
    · exact Recorded.refl s
    · split
      · exact (State.writeQueue_recorded _ _ _ _).trans (State.setPart_recorded _ _ _)
      · exact State.appendNow_recorded _ _ _ _ _

theorem State.traceLossPost_recorded (s : State) (space : Nat) : Recorded s (s.traceLossPost space) := by
  unfold State.traceLossPost
  dsimp only
  split
  · split
    · exact Recorded.refl s
    · have h := State.traceRaw_recorded s space 0 0 6 (toLE 8 (s.part space).traceDropped)
      revert h
      generalize s.traceRaw space 0 0 6 (toLE 8 (s.part space).traceDropped) = r
      exact fun h => h.trans (by constructor <;> first | rfl | (constructor <;> rfl))
  · exact Recorded.refl s

theorem State.trace_recorded (s : State) (space core slot type : Nat) (body : List Byte) :
    Recorded s (s.trace space core slot type body) := by
  unfold State.trace
  split
  · exact (State.traceLossPost_recorded _ _).trans (State.traceRaw_recorded _ _ _ _ _ _)
  · exact Recorded.refl s

theorem State.traceGroup_recorded (s : State) (gid type : Nat) (body : List Byte) : Recorded s (s.traceGroup gid type body) := by
  unfold State.traceGroup
  dsimp only
  split
  · exact Recorded.refl s
  · have h1 : Recorded s (s.select gid) := by
      unfold State.select
      dsimp only
      split
      · constructor <;> first | rfl | (constructor <;> rfl)
      · exact Recorded.refl s
    have h2 := h1.trans (State.traceLossPost_recorded _ (s.group gid).space)
    revert h2
    generalize State.traceLossPost _ _ = r
    refine fun h2 => h2.trans ?_
    split
    · exact (((State.trace_recorded _ _ _ _ _ _).trans (State.updGroup_recorded _ _ _)).trans
        (State.trace_recorded _ _ _ _ _ _)).trans (State.updGroup_recorded _ _ _)
    · exact (State.trace_recorded _ _ _ _ _ _).trans (State.updGroup_recorded _ _ _)

theorem State.traceIssue_recorded (s : State) (acting skipped : List Nat) : Recorded s (s.traceIssue acting skipped) :=
  Recorded.foldl _ (fun _ _ => State.traceGroup_recorded _ _ _ _) _ s

/-! ## Without a trace nothing is written -/

/-- No partition has its trace enabled. -/
def NoTrace (s : State) : Prop := ∀ p, (s.part p).trctl.getLsbD 63 = false

theorem State.trace_off (s : State) (space core slot type : Nat) (body : List Byte) (h : NoTrace s) :
    s.trace space core slot type body = s := by
  unfold State.trace; rw [if_neg]; simpa using h space

theorem State.isSelected_off (s : State) (gid : Nat) (h : NoTrace s) : s.isSelected gid = false := by
  unfold State.isSelected State.selected
  rw [if_pos (by rw [h]; rfl)]; rfl

theorem State.traceGroup_off (s : State) (gid type : Nat) (body : List Byte) (h : NoTrace s) : s.traceGroup gid type body = s := by
  simp [State.traceGroup, State.isSelected_off s gid h]

theorem State.traceIssue_off (s : State) (acting skipped : List Nat) (h : NoTrace s) : s.traceIssue acting skipped = s := by
  unfold State.traceIssue
  dsimp only
  generalize (List.map gidOf (acting ++ skipped)).eraseDups = l
  induction l with
  | nil => rfl
  | cons g r ih => rw [List.foldl_cons, State.traceGroup_off s g 2 _ h]; exact ih

end Sys2Proof.Machine
end

