-- ==== Sys2Proof/Laws/Lanes.lean ====
section
/-! SUPPORT. How an instruction acts in the lanes of its issue group, said once: retiring, and the run of an instruction whose lanes
all act or are skipped. -/
namespace Sys2Proof.Machine

/-! ## Retiring -/

theorem State.summary_recorded (s : State) (gid : Nat) : Recorded s (s.summary gid) :=
  (State.trace_recorded _ _ _ _ _ _).trans (State.updGroup_recorded _ _ _)

theorem State.bump_regs (s : State) (bank subject index n : Nat) : RegsSame s (s.bump bank subject index n) := by constructor <;> rfl
theorem State.updLaunch_regs (s : State) (id : Nat) (f : Launch → Launch) : RegsSame s (s.updLaunch id f) := by constructor <;> rfl

/-- The counts of an instruction change no register and nothing in flight. -/
theorem State.countRetired_regs (s : State) (gid : Nat) : RegsSame s (s.countRetired gid) := by
  unfold State.countRetired
  dsimp only
  generalize (if s.isSelected gid = true then 0 else 1 : Nat) = n
  have h : ∀ (f : Launch → Launch) (k : Group → Group),
      RegsSame s (((s.bump 1 (s.group gid).space 0 1).updLaunch (s.group gid).launch f).updGroup gid k) := fun f k =>
    ((State.bump_regs _ _ _ _ _).trans (State.updLaunch_regs _ _ _)).trans (State.updGroup_recorded _ _ _).toRegsSame
  split
  · exact h _ _
  · exact (h _ _).trans (State.summary_recorded _ _).toRegsSame

/-- Retiring changes no register and nothing in flight. -/
theorem State.retire_regs (s : State) (counts jumped : Bool) (tid : Nat) : RegsSame s (s.retire counts jumped tid) := by
  unfold State.retire
  split
  · exact RegsSame.refl s
  · dsimp only
    generalize (if jumped = true then _ else _ : Thread) = t'
    have h : RegsSame s { s with threads := s.threads.put tid t', stamp := s.stamp + 1 } := by constructor <;> rfl
    split
    · exact h.trans (State.countRetired_regs _ _)
    · exact h

/-! ## A run in which nothing stands in the way -/

/-- The lanes that act. -/
def LaneOp.acting (op : LaneOp) (s : State) : List Nat := s.cur.lanes.filter (fun t => op.lane s t == .act)

/-- No cause of the instruction itself, and every lane acts or is skipped. -/
def LaneOp.Clear (op : LaneOp) (s : State) : Prop :=
  ∀ t ∈ s.cur.lanes, s.undeclared op.uses t = false ∧ op.own s t = false ∧ (op.lane s t = .act ∨ op.lane s t = .skip)

/-- The acts of the acting lanes, in ascending order. -/
def LaneOp.acts (op : LaneOp) (s : State) : State := (op.acting s).foldl (op.actLane s) s

theorem foldl_id {α β : Type} (f : β → α → β) (l : List α) (b : β) (h : ∀ a ∈ l, f b a = b) : l.foldl f b = b := by
  induction l with
  | nil => rfl
  | cons a r ih => rw [List.foldl_cons, h a (by simp)]; exact ih (fun x hx => h x (by simp [hx]))

/-- The run of a clear instruction: the acts, the trace of the issue, and every lane retires. -/
theorem LaneOp.run_clear (op : LaneOp) (s : State) (h : op.Clear s) :
    op.run s = (s.cur.lanes.map (fun t => (t, op.lane s t))).foldl
      (fun c x => c.retire op.counts (op.jumps && x.2 == .act) x.1)
      ((op.acts s).traceIssue (op.acting s)
        (((s.cur.lanes.map (fun t => (t, op.lane s t))).filter (fun x => x.2 == .skip)).map (·.1))) := by
  have e1 : s.cur.lanes.filter (fun t => s.undeclared op.uses t || op.own s t) = [] := by
    refine List.filter_eq_nil_iff.2 (fun t ht => ?_)
    obtain ⟨h1, h2, -⟩ := h t ht
    simp [h1, h2]
  have e2 : (s.cur.lanes.map (fun t => (t, op.lane s t))).foldl State.dropLane s = s := by
    refine foldl_id _ _ _ (fun x hx => ?_)
    obtain ⟨t, ht, rfl⟩ := List.mem_map.1 hx
    rcases (h t ht).2.2 with e | e <;> simp [State.dropLane, e]
  have e3 : (s.cur.lanes.map (fun t => (t, op.lane s t))).filterMap laneTrap = [] := by
    refine List.filterMap_eq_nil_iff.2 (fun x hx => ?_)
    obtain ⟨t, ht, rfl⟩ := List.mem_map.1 hx
    rcases (h t ht).2.2 with e | e <;> simp [laneTrap, e]
  have e4 : (s.cur.lanes.map (fun t => (t, op.lane s t))).filter laneGoes = s.cur.lanes.map (fun t => (t, op.lane s t)) := by
    refine List.filter_eq_self.2 (fun x hx => ?_)
    obtain ⟨t, ht, rfl⟩ := List.mem_map.1 hx
    rcases (h t ht).2.2 with e | e <;> simp [laneGoes, e]
  have e5 : ((s.cur.lanes.map (fun t => (t, op.lane s t))).filter (fun x => x.2 == .act)).map (·.1) = op.acting s := by
    rw [List.filter_map, List.map_map]
    simp [LaneOp.acting, Function.comp_def]
  have e6 : ((s.cur.lanes.map (fun t => (t, op.lane s t))).filter laneIssues).map (·.1) = op.acting s := by
    rw [← e5]
    refine congrArg _ (List.filter_congr (fun x hx => ?_))
    obtain ⟨t, ht, rfl⟩ := List.mem_map.1 hx
    rcases (h t ht).2.2 with e | e <;> simp [laneIssues, e]
  unfold LaneOp.run
  simp only [e1, e2, e3, e4, e5, e6, ne_eq, not_true_eq_false, if_false]
  rfl

/-- A clear instruction leaves every register and everything in flight as its acts do. -/
theorem LaneOp.run_regs (op : LaneOp) (s : State) (h : op.Clear s) : RegsSame (op.acts s) (op.run s) := by
  rw [LaneOp.run_clear op s h]
  exact (State.traceIssue_recorded _ _ _).toRegsSame.trans (RegsSame.foldl _ (fun _ _ => State.retire_regs _ _ _ _) _ _)

end Sys2Proof.Machine
end

