-- ==== Sys2Proof/Laws/Results.lean ====
section
/-! SUPPORT. What an instruction of lanes does when its lanes can take part: no lane is stopped, the lanes whose guard passes act, and a
result that each acting lane writes to its destination stands there in the end (R158). -/
namespace Sys2Proof.Laws

open Sys2Proof Sys2Proof.Machine

/-- A lane that can take part acts where its guard passes, and is skipped where it does not. -/
theorem fit_lane (op : LaneOp) (s : State) (l : Nat) (hl : l ∈ s.cur.lanes) (hr : Spec.ready op.uses s = true)
  (hb : ∀ s t, op.block s t = none) (hc : ∀ s t, op.cause s t = none) :
   s.undeclared op.uses l = false ∧ (s.threads.find l).isSome ∧ op.lane s l = if s.guardOn op.uses.h l then .act else .skip := by
  simp only [Spec.ready, Bool.and_eq_true, List.all_eq_true] at hr
  have h := hr.2 l hl
  simp only [Spec.fit, Bool.and_eq_true, Bool.not_eq_true', Bool.or_eq_true, List.all_eq_true, beq_iff_eq] at h
  obtain ⟨⟨⟨⟨h1, h2⟩, h0⟩, h3⟩, h4⟩ := h
  refine ⟨h2, h1, ?_⟩
  unfold LaneOp.lane
  rw [h0]
  unfold LaneOp.meet
  dsimp only
  rw [if_neg]
  · cases hg : s.guardOn op.uses.h l
    · simp
    · rcases h4 with h4 | ⟨⟨⟨h5, h6⟩, h7⟩, h8⟩
      · simp [hg] at h4
      · simp [h5, h6, h7, h8, hb, hc, firstCause]
  · simp only [List.any_eq_true, not_exists]; intro x hx; have := h3 x hx.1; simp [hx.2] at this

/-- No lane of a ready issue group stops it. -/
theorem clear_of_ready (op : LaneOp) (s : State) (hr : Spec.ready op.uses s = true)
  (hown : ∀ s t, op.own s t = false) (hb : ∀ s t, op.block s t = none) (hc : ∀ s t, op.cause s t = none) : op.Clear s := by
  intro l hl
  obtain ⟨a, b, c⟩ := fit_lane op s l hl hr hb hc
  refine ⟨a, hown _ _, ?_⟩
  rw [c]; split <;> simp

/-- The acting lanes of a ready issue group are those whose guard passes. -/
theorem acting_eq (op : LaneOp) (s : State) (hr : Spec.ready op.uses s = true)
  (hb : ∀ s t, op.block s t = none) (hc : ∀ s t, op.cause s t = none) :
   op.acting s = s.cur.lanes.filter (fun l => s.guardOn op.uses.h l) := by
  unfold LaneOp.acting
  refine List.filter_congr (fun l hl => ?_)
  rw [(fit_lane op s l hl hr hb hc).2.2]
  cases s.guardOn op.uses.h l <;> simp

/-- Writes a result of width 64 or 32 to a destination of lane `t`. -/
def putResult (wide : Bool) (d : Operand) (c : State) (t : Nat) (x : (w : Nat) → BitVec w) : State :=
  if wide then c.wr64 t d (x 64) else c.wr32 t d (x 32)

/-- A destination of that width. -/
def okDst (wide : Bool) (d : Operand) : Bool := if wide then d.vg64 else d.vg

theorem getV_setV (s : State) (t n : Nat) (x : W32) (t' n' : Nat) : (s.setV t n x).getV t' n' = if t' * 256 + n' = t * 256 + n then x else s.getV t' n' := by
  simp [State.getV, Tab.getD_putZ]
theorem getU_setU (s : State) (t n : Nat) (x : W64) (t' n' : Nat) : (s.setU t n x).getU t' n' = if t' * 64 + n' = t * 64 + n then x else s.getU t' n' := by
  simp [State.getU, Tab.getD_putZ]

/-- What was written to a destination reads back there. -/
theorem put_self (wide : Bool) (d : Operand) (c : State) (t : Nat) (x : (w : Nat) → BitVec w) (hd : okDst wide d = true) :
    (wide = true → (putResult wide d c t x).src64 t d = x 64) ∧
    (wide = false → (putResult wide d c t x).src32 t d = x 32 ∧ (d.isG = true → (putResult wide d c t x).src64 t d = (x 32).setWidth 64)) := by
  cases wide
  · refine ⟨by simp, fun _ => ?_⟩
    cases d <;> simp_all [okDst, Operand.vg, Operand.isV, Operand.isG, putResult, State.wr32, State.src32, State.src64, getV_setV, getU_setU]
  · refine ⟨fun _ => ?_, by simp⟩
    cases d <;> simp_all [okDst, Operand.vg64, Operand.vMul, Operand.isG, putResult, State.wr64, State.src64, getV_setV, getU_setU]
    apply BitVec.eq_of_getLsbD_eq
    intro i hi
    rw [BitVec.getLsbD_append]
    split
    · simp_all
    · simp only [BitVec.getLsbD_setWidth, BitVec.getLsbD_ushiftRight]
      rw [show 32 + (i - 32) = i by omega]
      simp; omega

/-- A result of one lane leaves the destination of another, unless both are of one group and it is a uniform register. -/
theorem put_other (wide : Bool) (d : Operand) (c : State) (t l : Nat) (x : (w : Nat) → BitVec w)
    (h : t ≠ l) (hg : d.isG = true → gidOf t ≠ gidOf l) (hd : okDst wide d = true) :
    (wide = true ∨ d.isG = true → (putResult wide d c t x).src64 l d = c.src64 l d) ∧ (putResult wide d c t x).src32 l d = c.src32 l d := by
  cases d with
  | v n =>
    have hn : n.toNat < 256 := n.isLt
    cases wide
    · refine ⟨by simp [Operand.isG], ?_⟩
      simp only [putResult, State.wr32, State.src32, getV_setV, Bool.false_eq_true, if_false]
      have : ¬ (l * 256 + n.toNat = t * 256 + n.toNat) := by omega
      rw [if_neg this]
    · have h2 : n.toNat % 2 = 0 := by simpa [okDst, Operand.vg64, Operand.vMul, Operand.isG] using hd
      simp only [putResult, State.wr64, State.src64, State.src32, getV_setV, if_true]
      have e1 : ¬ (l * 256 + (n.toNat+1) = t * 256 + n.toNat) := by omega
      have e2 : ¬ (l * 256 + (n.toNat+1) = t * 256 + (n.toNat+1)) := by omega
      have e3 : ¬ (l * 256 + (n.toNat) = t * 256 + n.toNat) := by omega
      have e4 : ¬ (l * 256 + (n.toNat) = t * 256 + (n.toNat+1)) := by omega
      rw [if_neg e4, if_neg e1, if_neg e2, if_neg e3]
      simp
  | g n =>
    have := hg rfl
    have hn : n.toNat < 64 := n.isLt
    have e3 : ¬ (gidOf l * 64 + (n.toNat) = gidOf t * 64 + n.toNat) := by omega
    have e4 : ¬ (gidOf l * 64 = gidOf t * 64) := by omega
    cases wide <;> simp [putResult, State.wr32, State.wr64, State.src64, State.src32, getU_setU, e4]
  | _ => cases wide <;> simp [okDst, Operand.vg, Operand.vg64, Operand.isV, Operand.isG, Operand.vMul] at hd

theorem pairwise_split {α} {R : α → α → Prop} {l : List α} (h : l.Pairwise R) {a : α} (ha : a ∈ l) : ∃ x y, l = x ++ a :: y ∧ ∀ b ∈ y, R a b := by
  obtain ⟨x, y, rfl⟩ := List.append_of_mem ha
  refine ⟨x, y, rfl, ?_⟩
  have := (List.pairwise_append.1 h).2.1
  exact (List.pairwise_cons.1 this).1

theorem foldl_keep {α β : Type} (P : β → Prop) (f : β → α → β) (l : List α) (h : ∀ b a, a ∈ l → P b → P (f b a)) : ∀ b, P b → P (l.foldl f b) := by
  induction l with
  | nil => exact fun b hb => hb
  | cons a r ih => exact fun b hb => ih (fun b x hx => h b x (by simp [hx])) _ (h b a (by simp) hb)

theorem threads_some (op : LaneOp) (s : State) (hact : ∀ o c t l, ((op.act o c t).threads.find l).isSome = (c.threads.find l).isSome)
   (l : Nat) (c : State) (t : Nat) : ((op.actLane s c t).threads.find l).isSome = (c.threads.find l).isSome := by
  unfold LaneOp.actLane
  split
  · rw [hact]; split
    · simp [Tab.isSome_upd]
    · rfl
  · rfl

/-- An instruction of lanes that writes one result to its destination completes, and every result that stands is there. -/
theorem written (op : LaneOp) (s : State) (d : Operand) (wide : Bool) (g : State → (w : Nat) → Nat → BitVec w)
   (hact : op.act = fun o c t => putResult wide d c t (fun w => g o w t))
   (hd : okDst wide d = true) (hr : Spec.ready op.uses s = true)
  (hown : ∀ s t, op.own s t = false) (hb : ∀ s t, op.block s t = none) (hc : ∀ s t, op.cause s t = none) :
   ∃ t, op.exec s = .next t ∧ Spec.Written op.uses d wide s t (fun w l => g s w l) := by
  refine ⟨_, rfl, ?_⟩
  have hclear := clear_of_ready op s hr hown hb hc
  have hregs := LaneOp.run_regs op s hclear
  have hfit := fun l hl => fit_lane op s l hl hr hb hc
  intro l hl
  simp only [Spec.stands, Bool.and_eq_true] at hl
  obtain ⟨ha, hs⟩ := hl
  have hact' : ∀ o c t l, ((op.act o c t).threads.find l).isSome = (c.threads.find l).isSome := by
    intro o c t l; rw [hact]; cases wide <;> cases d <;> simp [putResult, State.wr32, State.wr64]
  have hmem : l ∈ op.acting s := by
    rw [acting_eq op s hr hb hc, List.mem_filter]
    simpa [Spec.acts] using ha
  have hpw : (op.acting s).Pairwise (fun a b => gidOf a = gidOf b → a < b) := by
    simp only [Spec.ready, Bool.and_eq_true, decide_eq_true_eq] at hr
    exact List.Pairwise.filter _ hr.1
  obtain ⟨A, B, hAB, hB⟩ := pairwise_split hpw hmem
  have hsrc : ∀ (a b : State) (o : Operand), RegsSame a b → o.vg = true → b.src64 l o = a.src64 l o ∧ b.src32 l o = a.src32 l o := by
    intro a b o h ho
    cases o <;> simp_all [State.src64, State.src32, State.getV, State.getU, h.vreg, h.ureg, Operand.vg, Operand.isV, Operand.isG]
  have hvg : d.vg = true := by
    cases wide <;> cases d <;> simp_all [okDst, Operand.vg, Operand.vg64, Operand.isV, Operand.isG, Operand.vMul]
  obtain ⟨e1, e2⟩ := hsrc _ _ d hregs hvg
  show (wide = true → (op.run s).src64 l d = _) ∧ (wide = false → (op.run s).src32 l d = _ ∧ (d.isG = true → (op.run s).src64 l d = _))
  rw [e1, e2]
  -- the fold
  have step : ∀ (c : State) (m : Nat), (c.threads.find m).isSome = true →
     ∃ c', op.actLane s c m = putResult wide d c' m (fun w => g s w m) ∧ c'.vreg = c.vreg ∧ c'.ureg = c.ureg := by
    intro c m hm
    unfold LaneOp.actLane
    rw [if_pos hm, hact]
    split
    · exact ⟨_, rfl, rfl, rfl⟩
    · exact ⟨_, rfl, rfl, rfl⟩
  have hsome : ∀ (L : List Nat) (c : State), (∀ m, (c.threads.find m).isSome = (s.threads.find m).isSome) →
      ∀ m, ((L.foldl (op.actLane s) c).threads.find m).isSome = (s.threads.find m).isSome := by
    intro L c hc m
    refine foldl_keep (fun c : State => (c.threads.find m).isSome = (s.threads.find m).isSome) _ L ?_ c (hc m)
    intro b a _ hb
    rw [threads_some op s hact', hb]
  unfold LaneOp.acts
  rw [hAB, List.foldl_append, List.foldl_cons]
  have hmA := hsome A s (fun _ => rfl)
  generalize hcA : A.foldl (op.actLane s) s = cA at hmA
  have hl1 : (cA.threads.find l).isSome = true := by
    rw [hmA]; refine (hfit l ?_).2.1;
    exact (List.mem_filter.1 hmem).1
  obtain ⟨c', hc', hv, hu⟩ := step cA l hl1
  rw [hc']
  have hself := put_self wide d c' l (fun w => g s w l) hd
  have hmL : ∀ m, ((putResult wide d c' l (fun w => g s w l)).threads.find m).isSome = (s.threads.find m).isSome := by
    intro m; rw [← hc', threads_some op s hact', hmA]
  generalize putResult wide d c' l (fun w => g s w l) = cL at hself hmL
  have hBmem : ∀ m ∈ B, m ∈ s.cur.lanes ∧ s.guardOn op.uses.h m = true := by
    intro m hm
    have : m ∈ op.acting s := by rw [hAB]; simp [hm]
    rw [acting_eq op s hr hb hc, List.mem_filter] at this
    exact this
  have hk := foldl_keep (fun c : State => (∀ m, (c.threads.find m).isSome = (s.threads.find m).isSome) ∧ (wide = true ∨ d.isG = true → c.src64 l d = cL.src64 l d) ∧ c.src32 l d = cL.src32 l d) (op.actLane s) B ?_ cL ⟨hmL, fun _ => rfl, rfl⟩
  · obtain ⟨-, k1, k2⟩ := hk
    rw [k2]
    refine ⟨fun h => ?_, fun h => ⟨(hself.2 h).1, fun hG => ?_⟩⟩
    · rw [k1 (.inl h)]; exact hself.1 h
    · rw [k1 (.inr hG)]; exact (hself.2 h).2 hG
  · rintro c m hm ⟨h1, h2, h3⟩
    refine ⟨fun x => by rw [threads_some op s hact', h1], ?_⟩
    have hmm := hBmem m hm
    obtain ⟨c2, e, hv2, hu2⟩ := step c m (by rw [h1]; exact (hfit m hmm.1).2.1)
    have hne : m ≠ l := by
      rintro rfl
      have := hB m hm rfl
      omega
    have hgg : d.isG = true → gidOf m ≠ gidOf l := by
      intro hg eg
      have h4 : l < m := hB m hm eg.symm
      have : m ≤ l := by
        cases d <;> simp [Operand.isG, Operand.isV, Operand.isP] at hg hs
        rcases hs m hmm.1 with (h | h) | h
        · simp [hmm.2] at h
        · exact absurd eg h
        · exact h
      omega
    obtain ⟨p1, p2⟩ := put_other wide d c2 m l (fun w => g s w m) hne hgg hd
    have q1 : c2.src64 l d = c.src64 l d := by
      cases d <;> simp_all [State.src64, State.src32, State.getV, State.getU, Operand.vg, Operand.isV, Operand.isG]
    have q2 : c2.src32 l d = c.src32 l d := by
      cases d <;> simp_all [State.src64, State.src32, State.getV, State.getU, Operand.vg, Operand.isV, Operand.isG]
    rw [e]
    exact ⟨fun h => by rw [p1 h, q1, h2 h], by rw [p2, q2, h3]⟩

end Sys2Proof.Laws
end

