-- ==== Sys2Proof/Tests/Slice0.lean ====
section
/-! SUPPORT. Tests of the model: ill-formed terms that `Instr.wf` refuses, words of the spec that decode to what they stand for,
results that the spec works out, and for each obligation states that meet its hypotheses. -/
namespace Sys2Proof.Tests

set_option maxRecDepth 100000
set_option Elab.async false

open Machine

/-! ## Short forms -/

def hd : Header := Spec.head 0 false 0
def vf (d : Operand) (a b c : Operand := .v 0) (sel : BitVec 4 := 0) (rnd : BitVec 3 := 0) (sat : Bool := false)
    (dfmt sfmt : BitVec 4 := 0) (h : Header := hd) : VForm :=
  { h := h, d := d, a := a, b := b, c := c, sel := sel, rnd := rnd, sat := sat, dfmt := dfmt, sfmt := sfmt }
def jf (d : Operand) (a : Operand := .v 0) (imm : W32 := 0) (sel : BitVec 4 := 0) (rnd : BitVec 3 := 0) (sat : Bool := false)
    (dfmt : BitVec 4 := 0) (h : Header := hd) : IForm :=
  { h := h, d := d, a := a, sel := sel, rnd := rnd, sat := sat, dfmt := dfmt, imm := imm }
def mf (data base idx : Operand) (size : BitVec 3 := 0) (ord : BitVec 2 := 0) (scope : BitVec 3 := 0) (subop : BitVec 4 := 0)
    (ofs : BitVec 20 := 0) (scl : BitVec 2 := 0) (h : Header := hd) : MForm :=
  { h := h, data := data, base := base, idx := idx, scope := scope, ord := ord, size := size, scl := scl, subop := subop, ofs := ofs }
def bf (opnd : Operand) (lofs : W32 := 0) (tslot : BitVec 3 := 0) (mod : BitVec 6 := 0) (h : Header := hd) : BForm :=
  { h := h, opnd := opnd, mod := mod, lofs := lofs, tslot := tslot }
def af (res : Operand) (a b c : Operand := .v 0) (imm16 : BitVec 16 := 0) (lo : BitVec 4 := 0) (sat : Bool := false)
    (pw : BitVec 2 := 0) (poll : Bool := false) (h : Header := hd) : AForm :=
  { h := h, res := res, a := a, b := b, c := c, imm16 := imm16, lo := lo, sat := sat, pw := pw, poll := poll }

/-- A word reads as an instruction. -/
def reads (w : Nat) (i : Instr) : Bool := match decode w with | .ok j => decide (j = i) | .error _ => false
def refuses (w : Nat) (e : Reject) : Bool := match decode w with | .ok _ => false | .error x => decide (x = e)
/-- The next state of an instruction has a property. -/
def runs (i : Instr) (s : State) (p : State → Bool := fun _ => true) : Bool := match exec i s with | .next t => p t | _ => false
/-- An instruction is well formed and its issue group can take part. -/
def meets (i : Instr) (s : State) : Bool := i.wf && Spec.ready i.uses s

/-! ## Well-formedness (R18, R157, R324 to R334) -/

/-- One ill-formed term for each check: R18 (an unused field), R22 (ARM and ATOK), R324 (empty-behaviour bits), R157 (pairs and quads), R343
(classes at width 64), R328 to R334 (modifiers), R358 (CALL), R387 to R399 (the M format), R403 to R420 (the A format), R423, R428. -/
theorem test_ill_formed : ([.nop (vf (.v 1)), .iadd (vf (.v 1) (.v 2) (.v 3) (.v 1)), .iadd (vf (.v 1) (.v 2) (.v 3) (h := Spec.head 0 true 0)),
    .iadd (vf (.v 1) (.v 2) (.v 3) (h := Spec.head 0 false 1)), .iadd (vf (.v 1) (.v 2) (.v 3) (h := { hd with eb := 4 })),
    .iadd (vf (.v 1) (.v 2) (.p 3)), .iadd (vf (.g 1) (.v 3) (.g 2)), .iadd (vf (.v 1) (.v 2) (.v 3) (rnd := 1)),
    .imul (vf (.v 1) (.v 2) (.v 3) (sat := true)), .imulh (vf (.v 1) (.v 2) (.v 3) (sel := 2)), .icmp (vf (.p 1) (.v 2) (.v 3) (sel := 10)),
    .icmpI (jf (.v 1) (.v 2)), .iaddc (vf (.v 1) (.v 2) (.v 3) (.v 4)), .lea (mf (.v 1) (.g 0) (.p 0)), .lea (mf (.v 2) (.v 0) (.p 0)),
    .iaddw (vf (.v 3) (.g 0) (.v 0)), .sext (vf (.v 1) (.v 2) (sel := 5)), .movu (jf (.v 1)), .movi (jf (.v 1) (.v 2)),
    .fadd (vf (.v 1) (.v 2) (.v 3) (rnd := 5)), .fmin (vf (.v 1) (.v 2) (.v 3) (rnd := 1)), .fcmp (vf (.p 1) (.v 2) (.v 3) (sel := 6)),
    .fclass (vf (.v 1) (.v 2) (.v 3)), .frnd (vf (.v 1) (.v 2) (rnd := 1)), .frsq (vf (.v 1) (.v 2) (rnd := 1)),
    .cvt (vf (.v 1) (.v 2) (dfmt := 9) (sfmt := 9)), .cvt (vf (.v 1) (.v 2) (dfmt := 1) (sfmt := 11)), .cvt (vf (.v 1) (.v 2) (sel := 2) (dfmt := 9) (sfmt := 1)),
    .packb (vf (.v 1) (.v 2) (.v 3) (sel := 4)), .pand (vf (.v 1) (.p 2) (.p 3)), .pnot (vf (.p 1) (.p 2) (.p 3))] : List Instr).all
    (fun i => !i.wf) = true := by decide +kernel
theorem test_ill_formed_control_and_memory : ([.bra (bf (.v 0) (mod := 3)), .bra (bf (.v 0) (tslot := 5)), .brx (bf (.v 1)), .call (bf (.g 2)), .ret (bf (.v 3)), .exitT (vf (.v 1)),
    .bar (jf (.v 0)), .elect (vf (.v 1)), .vote (vf (.v 1) (.p 1)), .vote (vf (.p 1) (.v 2) (sel := 2)), .shfl (vf (.g 1) (.v 2) (.v 3)),
    .greduce (vf (.v 1) (.v 2) (sel := 11)), .sleep (jf (.v 1)), .ld (mf (.v 2) (.v 0) (.p 0) (size := 2)), .ld (mf (.v 3) (.g 0) (.p 0) (size := 3)),
    .ld (mf (.v 2) (.g 0) (.p 0) (size := 6)), .ld (mf (.v 2) (.g 0) (.p 0) (size := 2) (ord := 2)), .st (mf (.v 2) (.g 0) (.p 0) (size := 2) (ord := 1)),
    .st (mf (.v 2) (.g 0) (.p 0) (size := 2) (subop := 1)), .ldn (mf (.v 2) (.g 0) (.v 4) (size := 2)), .ldu (mf (.v 2) (.g 0) (.p 0) (size := 2)),
    .stu (mf (.g 1) (.g 0) (.p 0) (size := 4)), .ldparam (mf (.g 1) (.w 0 1) (.p 0) (size := 4)), .pagereq (mf (.v 1) (.g 0) (.p 0)),
    .atom (mf (.v 1) (.g 0) (.p 0) (size := 3)), .atom (mf (.v 0) (.g 0) (.p 0) (size := 2) (subop := 10)), .atomf (mf (.v 0) (.g 0) (.p 0) (size := 3)),
    .red (mf (.v 0) (.g 0) (.p 0) (size := 2) (subop := 8)), .fence (mf (.v 0) (.v 0) (.p 0)), .fence (mf (.v 0) (.v 0) (.p 0) (ord := 3) (scope := 7)),
    .acqr (mf (.v 0) (.g 0) (.p 0) (size := 2) (scope := 5)), .qctl (mf (.g 0) (.g 0) (.p 0) (subop := 5)), .drainst (vf (.v 0) (sel := 2))] : List Instr).all
    (fun i => !i.wf) = true := by decide +kernel
theorem test_ill_formed_objects_and_system : ([.pin (vf (.v 0) (.g 0)), .unpin (vf (.pin 0) (.v 1)), .reclaim (vf (.g 0) (.g 1)), .reclwait (vf (.v 4) (.p 1)), .snap (vf (.v 1)), .snapq (vf (.p 1) (.v 2)),
    .copy (af (.v 0) (.g 0) (.v 0) (.v 3) (lo := 1)), .copy (af (.v 0) (.v 1) (.p 0) (.v 3)), .gcopy (af (.v 1) (.g 0) (.p 0) (.v 3)),
    .binit (af (.v 0) (.g 0) (.v 1) (imm16 := 1) (lo := 2)), .binitI (af (.v 0) (.g 0) (.v 1) (imm16 := 1) (lo := 2)), .binitI (af (.v 0) (.g 0) (lo := 1)),
    .arrive (af (.v 0) (.v 1) (.v 2)), .waitphaseI (af (.p 1) (.g 0)), .testphase (af (.v 0) (.g 0) (.v 2)), .tokwait (af (.v 1) (.v 0) (.v 2)),
    .tokwait (af (.v 1) (.v 0) (.v 2) (poll := true)), .tfill (af (.v 0) (.v 3)), .twait (af (.v 0) (.g 0) (poll := true)), .tres (af (.t 0) (.v 4)),
    .trel (af (.v 0)), .tload (af (.t 0) (.g 0) (.v 1)), .mloadw (af (.v 0) (.v 0) (.v 1)), .mloadw (af (.v 0) (.t 0) (.v 1) (lo := 1)), .mswap (af (.v 1)),
    .mma (af (.v 0) (.t 0)), .mhad (af (.t 0) (.v 0) (.v 1)), .mhadI (af (.t 0) (.t 0) (.v 1)), .mzero (af (.t 0)), .mdrain (af (.v 0) (.a 0) (.g 0) (.v 1) (lo := 5)),
    .mread (af (.v 2) (.a 0) (.v 1)), .scall (jf (.v 0) (.v 0) 0x80000), .scall (jf (.g 0) (.v 0) 0x280000), .scall (jf (.v 0) (.g 63) 0x20000),
    .trapI (jf (.v 1)), .bkpt (jf (.v 0) (.v 1)), .getsr (jf (.v 0) (.v 0) 0x15), .getsr (jf (.v 1) (.v 0) 0x18), .setsr (jf (.v 0) (.v 1) 0x15),
    .rte (vf (.v 1)), .cntrd (vf (.v 1) (.v 2)), .cntrdI (jf (.v 1)), .sigrd (vf (.g 0) (.g 1) (.g 2)), .haltW (vf (.v 1))] : List Instr).all
    (fun i => !i.wf) = true := by decide +kernel

/-! ## Decoding, from words of the spec -/

theorem test_reads_integer_and_float : [(Spec.word 0x52 0x405 0x2, Instr.shlI (jf (.v 5) (.v 1) 2)),
    (Spec.word 0x1C 0x20041105 0x100000, .lea (mf (.g 5) (.g 4) (.p 0) (ofs := 256))), (Spec.word 0x61 0x102 0x40, .movu (jf (.g 2) (.v 0) 0x40)),
    (Spec.word 0x86 0x501202 0x200, .fcmp (vf (.p 2) (.v 4) (.v 5) (sel := 2))),
    (Spec.word 0x97 0x802 0x190000, .cvt (vf (.v 2) (.v 2) (dfmt := 9) (sfmt := 1)))].all (fun x => reads x.1 x.2) = true := by decide +kernel
theorem test_reads_groups : [(Spec.word 0x111 0x804 0x800, Instr.greduce (vf (.v 4) (.v 2) (sel := 8))),
    (Spec.word 0x150 0x300803 0x1, .shflI (jf (.v 3) (.v 2) 1 (sel := 3))), (Spec.word 0x10D 0 2, .bar (jf (.v 0) (.v 0) 2)),
    (Spec.word 0x302 0 0, .rte (vf (.v 0)))].all (fun x => reads x.1 x.2) = true := by decide +kernel
theorem test_reads_memory : [(Spec.word 0xD87 0x40000 0x40, Instr.pagereq (mf (.v 0) (.g 0) (.v 0) (scl := 1) (h := Spec.head 3 false 0))),
    (Spec.word 0x186 0x200C1004 0x218, .ldparam (mf (.v 4) (.w 0 4) (.p 0) (size := 3) (subop := 2))),
    (Spec.word 0x188 0x60040808 0x913, .atom (mf (.v 8) (.g 2) (.p 0) (size := 2) (ord := 1) (scope := 5) (subop := 9))),
    (Spec.word 0x18B 0x60000000 7, .fence (mf (.v 0) (.v 0) (.p 0) (ord := 3) (scope := 5)))].all (fun x => reads x.1 x.2) = true := by
  decide +kernel
theorem test_reads_objects : [(Spec.word 0x1B4 4 0, Instr.snap (vf (.v 4))), (Spec.word 0xA80 0x4240 0, .tres (af (.t 0) (.v 16) (h := Spec.head 2 false 0))),
    (Spec.word 0xE00 0xD0541000 0, .copy (af (.v 0) (.g 4) (.g 5) (.v 3) (h := Spec.head 3 false 0))),
    (Spec.word 0xE43 0x41400 0xC600, .arriveI (af (.v 0) (.g 5) (imm16 := 198) (h := Spec.head 3 false 0))),
    (Spec.word 0xEC6 0x90240 0x2000, .mhadI (af (.t 0) (.t 0) (imm16 := 32) (h := Spec.head 3 false 0))),
    (Spec.word 0xEC3 0x90000 0x40003000, .mloadwI (af (.v 0) (.t 0) (imm16 := 48) (pw := 2) (h := Spec.head 3 false 0))),
    (Spec.word 0x289 0x7A0008 0, .mread (af (.v 8) (.a 0) (.v 7)))].all (fun x => reads x.1 x.2) = true := by decide +kernel
theorem test_reads_system : [(Spec.word 0x304 0x1800 0x26, Instr.setsr (jf (.v 0) (.v 6) 0x26)),
    (Spec.word 0x345 2 0x10000000, .cntrdI (jf (.v 2) (.v 0) 0x10000000)), (Spec.word 0x300 0x40104 0x138001, .scall (jf (.g 4) (.g 0) 0x138001)),
    (Spec.word 0x307 0x10340800 0, .sigrd (vf (.v 0) (.g 2) (.g 3)))].all (fun x => reads x.1 x.2) = true := by decide +kernel
theorem witness_WorkedEncodings : [(Spec.word 0x4C 0x200206 0x18, Instr.icmpI (jf (.p 6) (.v 0) 24 (sel := 2))),
    (Spec.word 0xC0 0x1806 0x3F800000, .faddI (jf (.v 6) (.v 6) 0x3F800000)), (Spec.word 0x10A 0x30014 0, .call (bf (.v 20) 3)),
    (Spec.word 0x10E 0x205 0, .elect (vf (.p 5))), (Spec.word 0x180 0x60040402 0x13, .ld (mf (.v 2) (.g 1) (.p 0) (size := 2) (ord := 1) (scope := 5))),
    (Spec.word 0x181 0x140002 0x20010, .st (mf (.v 2) (.g 0) (.v 1) (size := 2) (ofs := 32))),
    (Spec.word 0x1242 0x41400 0x2000200, .binitI (af (.v 0) (.g 5) (imm16 := 2) (lo := 2) (h := Spec.head 4 false 0))),
    (Spec.word 0x5800E88 0x90AA0000 1, .mdrain (af (.v 0) (.a 0) (.g 10) (.v 6) (h := Spec.head 3 true 3))),
    (Spec.word 0x303 0x104 0x2B, .getsr (jf (.g 4) (.v 0) 0x2B)), (Spec.word 0x301 0 0x51, .trapI (jf (.v 0) (.v 0) 0x51))].all
    (fun x => reads x.1 x.2) = true := by decide +kernel
theorem test_refused_words : (refuses 0x062 .illegalOp && refuses 0x3FF .illegalOp && refuses (0x002 + 2 ^ 30) .illegalField &&
    refuses (0x002 + 2 ^ 88) .illegalField && refuses (0x108 + 2 ^ 83) .illegalField && reads (2 ^ 95) (.invalid default)) = true := by decide +kernel

/-! ## Small states -/

/-- The group of `State.withFetchWord` on a core, one thread of it in the issue group, standing at slot 0 of the line at 0. -/
def base : State :=
  { State.reset.placeWord 1 with
    cur := { core := 0, space := 0, pc := 0, raw := 1, lanes := [0], last := false, first := false } }
/-- The same with the group's eight threads. -/
def eight : State :=
  { base with
    threads := (List.range 8).map (fun l => (l, { pc := 0 })),
    cur := { core := 0, space := 0, pc := 0, raw := 1, lanes := List.range 8, last := false, first := false } }
/-- A thread with values in v1, v2, v3 and p1. -/
def vals (a b c : W32) (p : Byte := 0) : State := (((base.setV 0 1 a).setV 0 2 b).setV 0 3 c).setP 0 1 p
/-- An instruction is well formed, its lane can take part, and it leaves `x` in v5. -/
def gives (i : Instr) (s : State) (x : W32) : Bool := meets i s && runs i s (fun t => decide (t.getV 0 5 = x))
/-- The same for predicate p2. -/
def givesP (i : Instr) (s : State) (x : Byte) : Bool := meets i s && runs i s (fun t => decide (t.getP 0 2 = x))
/-- The same for the uniform register g5. -/
def givesG (i : Instr) (s : State) (x : W64) : Bool := meets i s && runs i s (fun t => decide (t.getU 0 5 = x))

def d1 : VForm := vf (.v 5) (.v 1)
def d2 : VForm := vf (.v 5) (.v 1) (.v 2)
def d3 : VForm := vf (.v 5) (.v 1) (.v 2) (.v 3)
def k1 (imm : W32) : IForm := jf (.v 5) (.v 1) imm

/-! ## Results that the spec's rules give (R345 to R355) -/

theorem witness_IntegerTwoSources : (gives (.iadd { d2 with sat := true }) (vals 0x7FFFFFFF 1 0) 0x7FFFFFFF &&
    gives (.iadd d2) (vals 0x7FFFFFFF 1 0) 0x80000000 && gives (.isub { d2 with sat := true }) (vals 0x80000000 1 0) 0x80000000 &&
    gives (.imul d2) (vals 0x10001 0x10001 0) 0x20001 && gives (.imulh d2) (vals 0xFFFFFFFF 2 0) 0xFFFFFFFF &&
    gives (.imulh { d2 with sel := 1 }) (vals 0xFFFFFFFF 2 0) 1 && gives (.imin d2) (vals 0xFFFFFFFF 1 0) 0xFFFFFFFF &&
    gives (.imin { d2 with sel := 1 }) (vals 0xFFFFFFFF 1 0) 1 && gives (.imax d2) (vals 0xFFFFFFFF 1 0) 1 &&
    gives (.andB d2) (vals 0xF0F0 0xFF00 0) 0xF000 && gives (.orB d2) (vals 0xF0F0 0xFF00 0) 0xFFF0 &&
    gives (.xorB d2) (vals 0xF0F0 0xFF00 0) 0x0FF0 && gives (.andnB d2) (vals 0xF0F0 0xFF00 0) 0x00F0 &&
    gives (.shl d2) (vals 1 32 0) 0 && gives (.shr d2) (vals 0x80000000 31 0) 1 && gives (.sar d2) (vals 0x80000000 40 0) 0xFFFFFFFF &&
    gives (.rol d2) (vals 0x80000001 33 0) 3) = true := by decide +kernel
theorem witness_IntegerTwoSources_immediates : (gives (.iaddI (k1 0xFFFFFFFF)) (vals 5 0 0) 4 && gives (.isubI (k1 0xFFFFFFFF)) (vals 5 0 0) 6 &&
    gives (.imulI (k1 3)) (vals 5 0 0) 15 && gives (.imulhI (k1 0x10000)) (vals 0x10000 0 0) 1 && gives (.iminI (k1 0xFFFFFFFF)) (vals 5 0 0) 0xFFFFFFFF &&
    gives (.imaxI (k1 0xFFFFFFFF)) (vals 5 0 0) 5 && gives (.andBI (k1 6)) (vals 5 0 0) 4 && gives (.orBI (k1 6)) (vals 5 0 0) 7 &&
    gives (.xorBI (k1 6)) (vals 5 0 0) 3 && gives (.andnBI (k1 6)) (vals 5 0 0) 1 && gives (.shlI (k1 31)) (vals 5 0 0) 0x80000000 &&
    gives (.shrI (k1 1)) (vals 5 0 0) 2 && gives (.sarI (k1 1)) (vals 0xFFFFFFFB 0 0) 0xFFFFFFFD && gives (.rolI (k1 4)) (vals 0xF0000000 0 0) 15 &&
    givesG (.iaddI (jf (.g 5) (.g 5) 0xFFFFFFFF)) base 0xFFFFFFFFFFFFFFFF) = true := by decide +kernel
theorem witness_IntegerOneSource : (gives (.iabs d1) (vals 0x80000000 0 0) 0x80000000 && gives (.iabs { d1 with sat := true }) (vals 0x80000000 0 0) 0x7FFFFFFF &&
    gives (.ineg d1) (vals 5 0 0) 0xFFFFFFFB && gives (.notB d1) (vals 5 0 0) 0xFFFFFFFA && gives (.clz d1) (vals 0 0 0) 32 &&
    gives (.clz d1) (vals 0x00010000 0 0) 15 && gives (.popc d1) (vals 0xF00F0001 0 0) 9 && gives (.brev d1) (vals 1 0 0) 0x80000000 &&
    gives (.sext d1) (vals 0x80 0 0) 0xFFFFFF80 && gives (.zext { d1 with sel := 2 }) (vals 0xFF 0 0) 15 && gives (.mov d1) (vals 7 0 0) 7) = true := by
  decide +kernel
/-- The BFE values are the spec's own example (R348). -/
theorem witness_IntegerCarriesAndCompares : (gives (.imad d3) (vals 3 4 5) 17 && gives (.bfe d3) (vals 0xF0000000 28 8) 0xFFFFFFFF &&
    gives (.bfe { d3 with sel := 1 }) (vals 0xF0000000 28 8) 15 && gives (.bfi d3) (vals 0xAB 0x0808 0x11111111) 0x1111AB11 &&
    gives (.sel { d2 with c := .p 1 }) (vals 8 9 0 1) 8 && gives (.sel { d2 with c := .p 1 }) (vals 8 9 0 2) 9 &&
    gives (.iaddc { d2 with c := .p 1 }) (vals 0xFFFFFFFF 0 0 1) 0 &&
    runs (.iaddc { d2 with c := .p 1 }) (vals 0xFFFFFFFF 0 0 1) (fun t => decide (t.getP 0 1 = 1)) &&
    givesP (.icmp (vf (.p 2) (.v 1) (.v 2) (sel := 2))) (vals 0xFFFFFFFF 0 0) 1 && givesP (.icmpI (jf (.p 2) (.v 1) 0 (sel := 6))) (vals 0xFFFFFFFF 0 0) 0) =
    true := by decide +kernel
theorem witness_WideAndMoves : (givesG (.iaddw (vf (.g 5) (.g 5) (.v 1))) (vals 0x80000000 0 0) 0xFFFFFFFF80000000 &&
    givesG (.iaddw (vf (.g 5) (.g 5) (.v 1) (sel := 1))) (vals 0x80000000 0 0) 0x80000000 &&
    givesG (.lea (mf (.g 5) (.g 4) (.v 1) (scl := 2) (ofs := 0xFFFFC))) (vals 3 0 0) 8 && givesG (.lea (mf (.g 5) (.g 4) (.p 0) (ofs := 0xFFFFF))) base 0xFFFFFFFFFFFFFF &&
    givesG (.movi (jf (.g 5) (.v 0) 0xFFFFFFFE)) base 0xFFFFFFFFFFFFFFFE && givesG (.movu (jf (.g 5) (.v 0) 0x40)) (base.setU 0 5 7) 0x4000000007) = true := by
  decide +kernel
theorem witness_Predicates : (givesP (.pand (vf (.p 2) (.p 1) (.p 0))) (vals 0 0 0 0x5A) 0x5A && givesP (.por (vf (.p 2) (.p 1) (.p 0))) (vals 0 0 0 0x5A) 0xFF &&
    givesP (.pxor (vf (.p 2) (.p 1) (.p 0))) (vals 0 0 0 0x5A) 0xA5 && givesP (.pnot (vf (.p 2) (.p 1))) (vals 0 0 0 0x5A) 0xA5 &&
    givesP (.pmov (vf (.p 2) (.p 1))) (vals 0 0 0 0x5A) 0x5A && givesP (.pany (vf (.p 2) (.p 1) (.p 0))) (vals 0 0 0 0x5A) 1 &&
    givesP (.pall (vf (.p 2) (.p 1) (.p 0))) (vals 0 0 0 0x5A) 0 && meets (.pmov (vf (.p 0) (.p 1))) base) = true := by decide +kernel

/-! ## Floating point (R372 to R384) -/

theorem witness_FloatArithmetic : (gives (.fadd d2) (vals 0x3F800000 0x33800000 0) 0x3F800000 && gives (.fadd { d2 with rnd := 4 }) (vals 0x3F800000 0x33800000 0) 0x3F800001 &&
    gives (.faddI (k1 0x3F800000)) (vals 0x3F800000 0 0) 0x40000000 && gives (.fsub d2) (vals 0x3F800000 0x3F800000 0) 0 &&
    gives (.fsubI (k1 0x40000000)) (vals 0x3F800000 0 0) 0xBF800000 && gives (.fmul d2) (vals 0x40400000 0xC0000000 0) 0xC0C00000 &&
    gives (.fmulI (k1 0x7F7FFFFF)) (vals 0x40000000 0 0) 0x7F800000 && gives (.ffma d3) (vals 0x40400000 0x40000000 0x3F800000) 0x40E00000 &&
    gives (.fdiv d2) (vals 0x40C00000 0x40000000 0) 0x40400000) = true := by decide +kernel
theorem witness_FloatSelections : (gives (.fmin d2) (vals 0x80000000 0 0) 0x80000000 && gives (.fmax d2) (vals 0x80000000 0 0) 0 &&
    gives (.fminI (k1 0x3F800000)) (vals 0x40000000 0 0) 0x3F800000 && gives (.fmaxI (k1 0x3F800000)) (vals 0x40000000 0 0) 0x40000000 &&
    givesP (.fcmp (vf (.p 2) (.v 1) (.v 2) (sel := 2))) (vals 0xBF800000 0x3F800000 0) 1 &&
    givesP (.fcmpI (jf (.p 2) (.v 1) 0x3F800000)) (vals 0x7FC00000 0 0) 0 && gives (.fclass d1) (vals 0x3F800000 0 0) 0x40 &&
    givesP (.fclass (vf (.p 2) (.v 1) (.v 2))) (vals 0x3F800000 0x40 0) 1 && gives (.fscale d2) (vals 0x3F800000 3 0) 0x41000000 &&
    gives (.fscaleI (k1 0xFFFFFFFF)) (vals 0x3F800000 0 0) 0x3F000000 && gives (.frnd { d1 with rnd := 4 }) (vals 0x40200000 0 0) 0x40400000 &&
    gives (.frcp d1) (vals 0x40000000 0 0) 0x3F000000 && gives (.frsq d1) (vals 0x40800000 0 0) 0x3F000000 && gives (.fsqrt d1) (vals 0x40800000 0 0) 0x40000000) =
    true := by decide +kernel
theorem witness_Transcendentals : ([Instr.fexp2 d1, .flog2 d1, .fsin d1, .fcos d1, .ftanh d1].all (fun i => meets i (vals 0x3F800000 0 0)) &&
    gives (.fexp2 d1) (vals 0 0 0) 0x3F800000 && gives (.flog2 d1) (vals 0x7FC12345 0 0) 0x7FC00000) = true := by decide +kernel
theorem witness_PairsAndConversions : (gives (.hadd2 d2) (vals 0x3F803F80 0x3F804000 0) 0x40004040 && gives (.hmul2 d2) (vals 0x40003F80 0x40404000 0) 0x40C04000 &&
    gives (.hmax2 d2) (vals 0x3F803F80 0x40003F00 0) 0x40003F80 && gives (.hfma2 d3) (vals 0x40003F80 0x40404000 0x3F803F80) 0x40E04040 &&
    gives (.packb { d2 with sel := 2 }) (vals 0x11112222 0x33334444 0) 0x33332222 && gives (.unpackb { d1 with sel := 1 }) (vals 0x3F804000 0 0) 0x3F800000 &&
    gives (.cvt (vf (.v 5) (.v 1) (dfmt := 9) (sfmt := 1))) (vals 0x3C00 0 0) 0x3F800000 &&
    gives (.cvt (vf (.v 5) (.v 1) (dfmt := 0) (sfmt := 9))) (vals 0x3F880008 0 0) 0x3F88) = true := by decide +kernel

/-! ## Control (R356 to R370) -/

/-- The conditions on an issue group of `base`, with a frame that other registers keep (R29, R154). -/
theorem witness_RegisterFrame : (meets (.iadd d2) eight && Spec.registerOnly (.iadd d2) &&
    runs (.iadd d2) (eight.setV 3 6 7) (fun t => decide (t.getV 3 6 = 7) && decide ((t.thread 7).pc = 1)) && meets (.nop (vf (.v 0))) base) = true := by
  decide +kernel
theorem witness_RetiringCounts : (meets (.iadd d2) base && base.cur.lanes == [0] && (base.groups.find 0).isSome && (base.launches.find 0).isSome &&
    runs (.iadd d2) base (fun t => decide ((t.launchOf 0).retired = 1)) && runs (.nop (vf (.v 0))) base (fun t => decide ((t.launchOf 0).retired = 0))) =
    true := by decide +kernel
/-- Two exact values at the ends of the formats. -/
theorem witness_ExactValuesRoundToThemselves : (Flt.f32.decode 0x7F7FFFFF ≠ .nan ∧ Flt.f32.round 0 true (Flt.f32.decode 0x7F7FFFFF) = 0x7F7FFFFF) ∧
    (Flt.bf16.decode 0x8001 ≠ .nan ∧ Flt.bf16.round 3 false (Flt.bf16.decode 0x8001) = 0x8001) ∧ Flt.f32.decode 0xFF800000 ≠ .nan := by decide +kernel

/-- A target that may be entered is slot 0 of the line at 0; slots 1 to 4 of it have no TGT bit, and there is no slot 5 (R315, R317). -/
def onTarget (i : Instr) (s : State) : Bool := meets i s && decide (s.enter 0 0 0 0 = none) && runs i s (fun t => decide ((t.thread 0).pc = 0))
theorem witness_Branches : (onTarget (.bra (bf (.v 0))) base && onTarget (.brx (bf (.g 4))) base && onTarget (.call (bf (.v 20))) base &&
    runs (.call (bf (.v 20))) base (fun t => decide (t.src64 0 (.v 20) = 1)) && meets (.ret (bf (.v 10))) (base.setV 0 10 4) &&
    runs (.ret (bf (.v 10))) (base.setV 0 10 4) (fun t => decide ((t.thread 0).pc = 4) && decide ((t.thread 0).sig = 4))) = true := by decide +kernel
def badTarget (i : Instr) (s : State) : Bool :=
  meets i s && decide ((s.thread 0).st = .ready) && runs i s (fun t => decide ((t.thread 0).inHandler = true ∨ t.groups = []))
theorem witness_Branches_bad : (badTarget (.bra (bf (.v 0) (tslot := 4))) base && badTarget (.brx (bf (.g 4))) (base.setU 0 4 1) &&
    badTarget (.brx (bf (.g 4))) (base.setU 0 4 5) && badTarget (.call (bf (.v 20) (tslot := 1))) base && badTarget (.ret (bf (.v 10))) (base.setV 0 10 5) &&
    (match base.fetch 0 0 0 1 with | .line b => (leNat (b.drop 60)).testBit 1 == false && (leNat (b.drop 60)).testBit 0 | _ => false)) = true := by
  decide +kernel

/-- A gathered group in which lane l holds l in v1 and an odd lane bit 0 of p1. -/
def lanes8 : State := (List.range 8).foldl (fun s l => (s.setV l 1 (BitVec.ofNat 32 l)).setP l 1 (BitVec.ofNat 8 (l % 2))) eight
def joined (i : Instr) (s : State) : Bool := i.wf && Spec.gathered i.uses s 0
theorem witness_Collectives : (joined (.elect (vf (.p 2))) lanes8 &&
    runs (.elect (vf (.p 2))) lanes8 (fun t => (List.range 8).map (fun l => t.getP l 2) == [1, 0, 0, 0, 0, 0, 0, 0]) &&
    joined (.vote (vf (.p 2) (.p 1))) lanes8 && runs (.vote (vf (.p 2) (.p 1))) lanes8 (fun t => decide (t.getP 0 2 = 1)) &&
    runs (.vote (vf (.p 2) (.p 1) (sel := 1))) lanes8 (fun t => decide (t.getP 0 2 = 0)) && joined (.vote (vf (.g 5) (.p 1) (sel := 2))) lanes8 &&
    runs (.vote (vf (.g 5) (.p 1) (sel := 2))) lanes8 (fun t => decide (t.getU 0 5 = 0xAA)) && joined (.vote (vf (.p 2) (.v 1) (sel := 3))) lanes8 &&
    joined (.shfl (vf (.v 5) (.v 1) (.v 1))) lanes8 && joined (.shflI (jf (.v 5) (.v 1) 1 (sel := 3))) lanes8 &&
    runs (.shflI (jf (.v 5) (.v 1) 1 (sel := 3))) lanes8 (fun t => (List.range 8).map (fun l => (t.getV l 5).toNat) == [1, 0, 3, 2, 5, 4, 7, 6]) &&
    runs (.shflI (jf (.v 5) (.v 1) 3 (sel := 1))) lanes8 (fun t => (List.range 8).map (fun l => (t.getV l 5).toNat) == [0, 1, 2, 0, 1, 2, 3, 4])) = true := by
  decide +kernel
theorem witness_Reductions : (joined (.greduce (vf (.v 5) (.v 1))) lanes8 && (lanes8.live 0).all (fun l => level0 l < 8) && (lanes8.group 0).width == 8 &&
    runs (.greduce (vf (.v 5) (.v 1))) lanes8 (fun t => decide (t.getV 3 5 = 28)) && runs (.greduce (vf (.g 5) (.v 1) (sel := 4))) lanes8 (fun t => decide (t.getU 0 5 = 7)) &&
    joined (.greduce (vf (.v 5) (.v 1) (sel := 10))) lanes8) = true := by decide +kernel
theorem test_reduce_tree : runs (.greduce (vf (.v 5) (.v 1) (sel := 8))) ((List.range 8).foldl (fun s l => s.setV l 1 0x3F800000) eight)
    (fun t => decide (t.getV 7 5 = 0x41000000)) = true := by decide +kernel

/-- BAR.LEVEL 1 in the gathered group; BAR.LEVEL 2 in one thread, as the last arrival of its phase, and with seven others to come. -/
theorem witness_Barriers : (joined (.bar (jf (.v 0) (.v 0) 1)) eight && (eight.launchOf 0).record.barOk 1 && (eight.live 0).all (fun l => decide (eight.ordWait l 2 = none)) &&
    runs (.bar (jf (.v 0) (.v 0) 1)) eight (fun t => t.bars.getD (t.barKey 0 1) 0 == 1) &&
    meets (.bar (jf (.v 0) (.v 0) 2)) base && (base.launchOf 0).record.barOk 2 && (base.instThreads 0 2) == [0] &&
    runs (.bar (jf (.v 0) (.v 0) 2)) base (fun t => decide ((t.thread 0).pc = 1)) &&
    (let s := { eight with cur := base.cur }
     meets (.bar (jf (.v 0) (.v 0) 2)) s && runs (.bar (jf (.v 0) (.v 0) 2)) s (fun t => decide ((t.thread 0).st = .waiting (.bar 2))))) = true := by decide +kernel
theorem witness_ExitsAndScheduling : (meets (.exitT (vf (.v 0))) base && !base.storesPending 0 && decide ((base.thread 0).st = .ready) &&
    runs (.exitT (vf (.v 0))) base (fun t => t.groups == [] && t.threads == []) &&
    meets (.yield (vf (.v 0))) base && runs (.yield (vf (.v 0))) base (fun t => decide ((t.thread 0).st = .waiting (.yield 16))) &&
    meets (.sleep (jf (.v 0) (.v 0) 5)) base && runs (.sleep (jf (.v 0) (.v 0) 5)) base (fun t => decide ((t.thread 0).st = .waiting (.sleep 5))) &&
    runs (.sleep (jf (.v 0))) base (fun t => decide ((t.thread 0).pc = 1)) && meets (.nopre (vf (.v 0))) base &&
    runs (.nopre (vf (.v 0))) base (fun t => decide ((t.group 0).hold = some 0)) && meets (.preok (vf (.v 0))) base &&
    runs (.preok (vf (.v 0))) (base.updGroup 0 (fun g => { g with hold := some 3 })) (fun t => decide ((t.group 0).hold = none))) = true := by decide +kernel

/-! ## Steps, memory and traps (R34, R57, R89, R281 to R289, R429, R430) -/

theorem witness_DecodeEncode : ((Instr.iadd d2).wf && (match encode (.iadd d2) with | some w => reads w.toNat (.iadd d2) && w.extractLsb' 0 10 != 0 | none => false)) = true := by
  decide +kernel
theorem witness_RefusedEncodings : [0x062, 0x09A, 0x107, 0x116, 0x18F, 0x1B6, 0x20C, 0x28A, 0x309, 0x3FF].all (fun n => (opRow n).isNone && refuses n .illegalOp) = true ∧
    (opRow 2).isSome = true := by decide +kernel
/-- Encodings that the rules of their instructions call ILLEGAL_FIELD: one for each such clause of a statement. -/
theorem witness_illegal_fields :
    ([.iaddc (vf (.v 5) (.v 1) (.v 2)), .sel (vf (.v 5) (.v 1) (.v 2)), .icmp (vf (.v 5) (.v 1) (.v 2)), .icmp (vf (.p 1) (.v 1) (.v 2) (sel := 10)),
        .icmpI (jf (.v 5) (.v 1) 7), .iaddw (vf (.v 5) (.v 2) (.v 2)), .iaddw (vf (.g 5) (.v 2) (.v 2) (sel := 2)), .movu (jf (.v 4) (.v 0) 7),
        .fcmp (vf (.v 5) (.v 1) (.v 2)), .fcmp (vf (.p 1) (.v 1) (.v 2) (sel := 6)), .fcmpI (jf (.v 5) (.v 1) 7), .fclass (vf (.v 5) (.v 1) (.v 2)),
        .packb (vf (.v 5) (.v 1) (.v 2) (sel := 4)), .unpackb (vf (.v 5) (.v 1) (sel := 2)), .pand (vf (.v 5) (.p 1) (.p 2)), .pnot (vf (.p 5) (.v 1)),
        .pany (vf (.p 5) (.p 1) (.v 2)), .elect (vf (.p 5) (.p 1)), .vote (vf (.v 5) (.p 1)), .vote (vf (.g 5) (.p 1) (sel := 4)),
        .trapI (jf (.v 5) (.v 0) 7), .bkpt (jf (.v 0) (.v 1) 7)] : List Instr).all
      (fun i => match encode i with
        | some w => !i.wf && (match decode w.toNat with | .error .illegalField => true | _ => false)
        | none => false) = true := by decide +kernel
theorem witness_ResetMemory : Memory.wf State.reset.mem = true := by decide +kernel
/-- From the reset state every step goes on, as it does from `withFetchWord`, which runs the word that it places. -/
theorem witness_StepsKeepMemory : (match step State.reset with | .next t => Memory.wf t.mem | _ => false) = true := by decide +kernel
theorem witness_StepsGoOn : (match step { State.reset with pkg.supply := false } with | .fault .unpowered => true | _ => false) = true := by decide +kernel
/-- IADD_I v5, v0, #7 where a step fetches it, through the conditions of StepsRunWhatTheyDecode, and as the second slot of a pair. -/
theorem witness_StepsRunWhatTheyDecode :
    (let w := Spec.word 0x42 0x5 0x7
     let s := State.reset.withFetchWord 96 w
     let g := State.issueGroup { s with agenda := [] } 0 0 0
     match step s, s.agenda, g.2.fetch 0 0 0 0 with
     | .next t, [.issue 0 0 0], .line b => decide (t.getV 0 5 = 7) && decide ((t.thread 0).pc = 1) && s.coreRuns 0 && g.1 == [0] &&
         !(g.2.thread 0).pastEnd && !(g.2.thread 0).entry && !(g.2.group 0).pending (maskOfSlot b 0) && isCode 0 && lineWord b / 2 ^ 16 == 0 &&
         slotWord b 0 == w && !(pairsOf (lineWord b / 2 ^ 10 % 16)).contains 0 && s.pkg.supply && (g.2.live 0) == [0] &&
         ((List.range 96).countP (fun k => w.testBit k) + lineWord b / 2 ^ 5) % 2 == 0 && reads w (.iaddI (jf (.v 5) (.v 0) 7)) &&
         (let p := { s with agenda := [.pair 0 0 0 [0]] }
          (p.threads.find 0).isSome && decide ((p.thread 0).pc = 0) && decide ((p.thread 0).st = .ready) && !(p.thread 0).pastEnd && !(p.thread 0).entry &&
          (match p.fetch 0 0 0 0 with | .line b => slotWord b 0 == w | _ => false) &&
          (match step p with | .next t => decide (t.getV 0 5 = 7) | _ => false))
     | _, _, _ => false) = true := by decide +kernel
/-- Where the word at the code address of the reset machine is unallocated, or IADD_I with a reserved bit, its thread traps. -/
theorem witness_StepsRunWhatTheyDecode_refused :
    ([(0x62, 1), (Spec.word 0x80000042 0x5 0x7, 2)].all (fun x => match step (State.reset.withFetchWord 96 x.1) with
      | .next t => decide ((t.thread 0).trapCause = BitVec.ofNat 16 x.2) && (t.thread 0).inHandler && decide ((t.thread 0).info0 = BitVec.ofNat 64 x.1)
      | _ => false)) = true := by decide +kernel
theorem witness_StepsRunWhatTheyDecode_event :
    ((match step { State.reset with agenda := [.ev .stageHostAttach] } with | .next t => t.pkg.stage == 1 | _ => false) &&
    (let s := { State.reset with agenda := [.ev (.notices .operator 1)] }
     s.pkg.supply && !s.admits (some .operator) && (Instr.notices .operator 1).parts.isNone && (match step s with | .next t => t.pkg.replies == [] | _ => false)) &&
    (let s := { State.reset with agenda := [.dev (.tier false)] }
     s.admits none && (match step s with | .next t => !t.pkg.tierUp | _ => false)) &&
    (let s := { State.reset with agenda := [.dev (.unknown .operator)] }
     !s.admits (some .operator) && (match step s with | .next t => t.pkg.replies == [] | _ => false))) = true := by decide +kernel
/-- The last bytes of a frame; and a frame whose epoch is stale. -/
theorem witness_StoresReadBack : (let s := State.reset.store 65534 [1, 0]
    s.load 65534 2 == [1, 0] && s.load 65533 1 == [0] && 65534 % frameBytes + 2 ≤ frameBytes) = true := by decide +kernel

/-- A group with 4 KiB of scratchpad for its trap frames, on frame 0 of its core's slice, and a handler at the line that it stands on. -/
def pad : State :=
  { base.setPage 0 (flatBase / frameBytes) { valid := true, fix := true, reach := 1, owner := 0, addr := scratchBase, kind := 1, w := true, rd := true } with
    own := base.own.put dramFrames { owner := 0, fix := true, epoch := 0, maps := 1 },
    launches := base.launches.upd 0 (fun l => { l with record := { l.record with scratch := 8192 } }) }
def soft : TrapInfo := { cause := .soft, i0 := 0x51 }
theorem witness_TakingATrap : (pad.threads.find 0).isSome ∧ (pad.thread 0).inHandler = false ∧ pad.framePa 0 = scratchBase + 8192 ∧
    (pad.launchOf 0).record.handler = 0 ∧ pad.enter 0 0 0 0 = none ∧ ((pad.takeTrap 0 soft 1 false false false).thread 0).trapPc = 1 ∧
    (pad.takeTrap 0 soft 1 false false false).load (scratchBase + 8192 + 8) 1 = [0x51] := by decide +kernel
theorem witness_FaultsAndSoftwareTraps : ((pad.groups.find 0).isSome && (pad.launches.find 0).isSome && (pad.threads.find 0).isSome &&
    (let s := pad.updThread 0 (fun h => { h with inHandler := true })
     decide ((s.takeTrap 0 soft 1 false false false).groups = []) && decide (((s.takeTrap 0 soft 1 false false false).launch 0).firstKill = some 0x10)) &&
    meets (.trapI (jf (.v 0) (.v 0) 0x51)) pad && Spec.acts (Instr.trapI (jf (.v 0) (.v 0) 0x51)).uses pad 0 &&
    runs (.trapI (jf (.v 0) (.v 0) 0x51)) pad (fun t => decide ((t.thread 0).trapPc = 1) && decide ((t.thread 0).info0 = 0x51)) &&
    meets (.bkpt (jf (.v 0) (.v 0) 0x51)) pad && runs (.bkpt (jf (.v 0) (.v 0) 0x51)) pad (fun t => decide ((t.thread 0).trapPc = 0)) &&
    runs (.invalid default) pad (fun t => decide ((t.thread 0).trapCause = 1) && decide ((t.thread 0).info0 = 1))) = true := by decide +kernel
/-- A thread in its handler whose frame names the resume address itself, the next address, and another address that may be entered. -/
def inTrap (a : Nat) : State := (pad.takeTrap 0 soft 1 false false false).store (scratchBase + 8192) (toLE 8 a)
def returns (a : Nat) : Bool := let s := inTrap a
  meets (.rte (vf (.v 0))) s && (s.thread 0).inHandler && (s.thread 0).reports == [] && decide (s.acqWait 0 = none) && decide ((s.thread 0).st = .ready) &&
  !s.sectorPending 0 (s.framePa 0 - scratchBase + flatBase) && !s.poisoned (s.framePa 0) 8 && decide (s.frameAddr' 0 = BitVec.ofNat 56 a) &&
  runs (.rte (vf (.v 0))) s (fun t => decide ((t.thread 0).pc = BitVec.ofNat 56 a) && !(t.thread 0).inHandler)
theorem witness_TrapReturns : (returns 1 && returns 2 && returns 0) = true := by decide +kernel

/-! ## Memory instructions (R387 to R401) -/

/-- The state that an instruction leaves. -/
def after (i : Instr) (s : State) : State := match exec i s with | .next t => t | _ => s
/-- A thread whose g0 names byte 0x100 of its slice, g1 byte 0x100 of its page in DRAM, and g2 no page. -/
def mem0 : State := (((pad.setU 0 0 (BitVec.ofNat 64 (flatBase + 256))).setU 0 1 256).setU 0 2 0x10000).store (scratchBase + 256) [1, 2, 3, 4, 5, 6, 7, 8]
def word4 (base : Operand) : MForm := mf (.v 4) base (.p 0) (size := 2) (subop := 2)
def near (f : MForm) (g : Bool) (s : State) : Bool := Spec.goesTo f g s 0 && (Spec.found f g s 0).all (Spec.atHand (mBytes f g) s)
def far (f : MForm) (g : Bool) (s : State) : Bool :=
  Spec.goesTo f g s 0 && (Spec.found f g s 0).any (fun e => match e with | .here _ late => late | _ => false)
/-- A page that is lazy (STATE 1): a load finds it absent. -/
def lazyPage : State := mem0.setPage 0 1 { valid := false, state := 1, owner := 0, rd := true, w := true }
theorem witness_Loads : (meets (.ld (word4 (.g 0))) mem0 && near (word4 (.g 0)) false mem0 &&
    runs (.ld (word4 (.g 0))) mem0 (fun t => decide (t.getV 0 4 = 0x04030201) && decide (t.getP 0 2 = 0)) &&
    (let f := mf (.v 4) (.g 0) (.v 6) (size := 3)
     meets (.ldn f) mem0 && near f true mem0 && runs (.ldn f) mem0 (fun t => decide (t.getV 0 4 = 0x04030201) && decide (t.getV 0 5 = 0x04030201))) &&
    (let f := mf (.g 4) (.g 0) (.p 0) (size := 3)
     meets (.ldu f) mem0 && near f false mem0 && runs (.ldu f) mem0 (fun t => decide (t.getU 0 4 = 0x0807060504030201))) &&
    meets (.ld (word4 (.g 2))) lazyPage && near (word4 (.g 2)) false lazyPage &&
    runs (.ld (word4 (.g 2))) (lazyPage.setV 0 4 9) (fun t => decide (t.getV 0 4 = 0) && decide (t.getP 0 2 = 1)) &&
    meets (.ld (word4 (.g 1))) mem0 && far (word4 (.g 1)) false mem0 && runs (.ld (word4 (.g 1))) mem0 (fun t => t.isEmpty (.v 0 4) && t.isEmpty (.p 0 2))) =
    true := by decide +kernel
/-- The fill of that last load, whose page then holds another value. -/
theorem witness_Loads_fill : (let s := (after (.ld (word4 (.g 1))) mem0).store 256 [0x11, 0x22]
    match s.fills with
    | [(id, x)] => decide (x.what = .load 4 [some 256]) && !inRegion 2 256 && !s.fillBlocked id x && !s.elsPoisoned 4 [some 256] && !x.gone && !x.acqr && decide ((s.thread x.tid).st = .ready) &&
        decide (x.dst = [.v 0 4]) && decide (x.flag = some 2) && runs (.loadFill id) s (fun t => decide (t.getV 0 4 = 0x2211) && t.fills == [])
    | _ => false) = true := by decide +kernel
theorem witness_StoresRetire : (let f := mf (.v 4) (.g 1) (.p 0) (size := 2)
    let n := mf (.v 4) (.g 1) (.v 6) (size := 3)
    let u := mf (.g 4) (.g 1) (.p 0) (size := 3)
    let s := mem0.setV 0 4 0x55
    let free := fun (f : MForm) (g : Bool) => decide (s.ordWait 0 f.ord.toNat = none) && (mEls f s 0 g).all (fun va => va % mBytes f g == 0) &&
      decide (s.storePipe (lowerStores (Instr.st f).uses (fun s t => mEls f s t g) s 0) 0 (mEls f s 0 g) = none)
    meets (.st f) s && free f false && runs (.st f) s (fun t => (t.stores.map (fun e => (e.2.va, e.2.data))) == [(256, [0x55, 0, 0, 0])]) &&
    meets (.stn n) s && free n true && meets (.stu u) s && free u false && meets (.red f) s && free f false &&
    (match s.xlate 0 (some 0) 256 with | .leaf _ e => e.kind == 0 && e.w && reaches e false 0 32 0 | _ => false) &&
    runs (.red f) s (fun t => t.stores.map (fun e => e.2.atom) == [some (0, false, 4, 0x55)])) = true := by decide +kernel
/-- A store and a RED that wait, and a store to no page. -/
def stored (i : Instr) (base : W64) : State := after i ((mem0.setV 0 4 0x55).setU 0 1 base)
theorem witness_StoresTakeEffect : (let f := mf (.v 4) (.g 1) (.p 0) (size := 2)
    ([(Instr.st f, 0x55), (.red f, 0x55)] : List (Instr × Byte)).all (fun y =>
      let s := stored y.1 256
      match s.stores with
      | [(id, x)] => match s.xlate 0 none x.va with
        | .leaf pa e => decide (e.owner = 0) && e.w && e.kind ≤ 1 && !s.needsAside 0 pa && !s.earlierFill id x.tid [pa / 32] && !s.poisoned pa 4 && !s.lostDie pa &&
            !s.storeBlocked id x && x.data.length == 4 && runs (.storeResolve id) s (fun t => t.load 256 4 == [y.2, 0, 0, 0] && t.stores == [])
        | _ => false
      | _ => false)) = true := by decide +kernel
theorem witness_StoresTakeEffect_fault : (let s := stored (.st (mf (.v 4) (.g 1) (.p 0) (size := 2))) 0x30000
    match s.stores with
    | [(id, x)] => decide (s.xlate 0 none x.va = .none) && (s.threads.find 0).isSome && !s.storeBlocked id x &&
        runs (.storeResolve id) s (fun t => (t.thread 0).reports.map (·.cause) == [.storeFault] && t.mem == s.mem)
    | _ => false) = true := by decide +kernel
/-- ATOM.add and ATOM.cas in the slice of the core's own, at 8 bytes too, ATOM in DRAM, and ATOMF.add. -/
theorem witness_Atomics : (let s := (mem0.setV 0 4 3).setV 0 5 7
    let at' := fun (f : MForm) (fl : Bool) (s : State) => decide (s.ordWait 0 f.ord.toNat = none) && !s.sectorPending 0 (MForm.ea f s 0 0) &&
      (match s.atFind 0 (MForm.ea f s 0 0) (sizeBytes f.size.toNat) fl f.subop.toNat f.scope.toNat with | .here pa late => late || (!s.poisoned pa 8 && pa % 8 == 0) | _ => false)
    let w := fun (base : Operand) (op : BitVec 4) => mf (.v 4) base (.p 0) (size := 2) (subop := op)
    meets (.atom (w (.g 0) 0)) s && at' (w (.g 0) 0) false s && Spec.alone (Instr.atom (w (.g 0) 0)).uses s 0 &&
    runs (.atom (w (.g 0) 0)) s (fun t => decide (t.getV 0 4 = 0x04030201) && t.load (scratchBase + 256) 4 == [4, 2, 3, 4]) &&
    meets (.atom (w (.g 0) 9)) (s.setV 0 4 0x04030201) && runs (.atom (w (.g 0) 9)) (s.setV 0 4 0x04030201) (fun t => t.load (scratchBase + 256) 4 == [7, 0, 0, 0]) &&
    runs (.atom (w (.g 0) 9)) s (fun t => t.load (scratchBase + 256) 4 == [1, 2, 3, 4]) &&
    meets (.atom (w (.g 1) 0)) s && at' (w (.g 1) 0) false s && runs (.atom (w (.g 1) 0)) s (fun t => t.isEmpty (.v 0 4)) &&
    (let z := (s.setV 0 4 0x3F800000).store (scratchBase + 256) [0, 0, 0x80, 0x3F]
     meets (.atomf (w (.g 0) 0)) z && at' (w (.g 0) 0) true z && runs (.atomf (w (.g 0) 0)) z (fun t => t.load (scratchBase + 256) 4 == [0, 0, 0, 0x40]))) = true := by
  decide +kernel
theorem witness_FencesAndAcquires : (let f := mf (.v 0) (.v 0) (.p 0) (ord := 3) (scope := 5)
    let a := mf (.v 4) (.g 0) (.p 0) (size := 2) (ord := 1) (scope := 5) (subop := 2)
    meets (.fence f) mem0 && !mem0.storesPending 0 && mem0.fills == [] && runs (.fence { f with scope := 6 }) (mem0.updPart 0 (fun p => { p with sceil := 5 })) (fun t => (t.thread 0).ceiling) &&
    runs (.fence f) mem0 (fun t => decide ((t.thread 0).pc = 1)) && meets (.drainst (vf (.v 0) (sel := 1))) mem0 &&
    (let s := stored (.st (mf (.v 4) (.g 1) (.p 0) (size := 2))) 256
     meets (.drainst (vf (.v 0))) s && s.storesPending 0 && runs (.drainst (vf (.v 0))) s (fun t => decide ((t.thread 0).st = .waiting (.drain none)))) &&
    meets (.acqr a) mem0 && Spec.goesTo a false mem0 0 true && decide (mem0.acqrHost a 0 = none) && !mem0.poisoned (scratchBase + 256) 4 &&
    decide ((mem0.thread 0).st = .ready) && runs (.acqr a) mem0 (fun t => decide (t.getV 0 4 = 0x04030201)) &&
    (let s := after (.ld (word4 (.g 1))) mem0
     let f := mf (.v 0) (.v 0) (.p 0) (ord := 1) (scope := 5)
     meets (.fence f) s && Spec.acts (Instr.fence f).uses s 0 && s.fillsPending 0 && runs (.fence f) s (fun t => decide ((t.thread 0).st = .waiting .accesses))) &&
    (let s := stored (.st (mf (.v 4) (.g 1) (.p 0) (size := 2))) 256
     meets (.fence f) s && decide (s.acqWait 0 = none) && s.storesPending 0 && runs (.fence f) s (fun t => decide ((t.thread 0).st = .waiting .stores))) &&
    (let s := { mem0 with threads := mem0.threads.put 1 { pc := 0 }, stores := [(9, { tid := 1, space := 0, va := 256, data := [0], order := 0, scope := 0, code := 0, atRet := 0 })] }
     meets (.drainst (vf (.v 0) (sel := 1))) s && !s.storesPending 0 && (s.live 0).contains 1 && s.storesPending 1 && !s.drainPending 0 5 &&
     (let z := { s with stamp := 10 }
      z.drainPending 0 10 && runs (.drainst (vf (.v 0) (sel := 1))) z (fun t => decide ((t.thread 0).st = .waiting (.drain (some 10)))))) &&
    -- the read of a strong RED is still to come
    (let s := stored (.red (mf (.v 4) (.g 1) (.p 0) (size := 2) (ord := 1) (scope := 5))) 256
     let f := mf (.v 0) (.v 0) (.p 0) (ord := 1) (scope := 5)
     meets (.fence f) s && !s.fillsPending 0 && s.redPending 0 false && runs (.fence f) s (fun t => decide ((t.thread 0).st = .waiting .stores)))) = true := by
  decide +kernel

/-- A queue of a kind with handle 0 of partition 0, whose control word lies at 0x400 and whose ring at 0x2000. -/
def ring (kind esize : Nat) : Queue :=
  { space := 0, cw := 0x400, kind := kind, base := 0x2000, window := 16, logDepth := 3, esize := esize, scratch := false, netrx := false }
def withQueue (s : State) (q : Queue) : State := { s with queues := s.queues.put 0 q }
theorem witness_ParametersPagesAndQueues : (let f := mf (.v 4) (.w 0 31) (.p 0) (size := 3) (subop := 2)
    let p := mf (.v 0) (.g 2) (.p 0)
    let q := mf (.g 4) (.g 1) (.p 0)
    let s := { mem0 with launches := mem0.launches.upd 0 (fun l => { l with params := [(31, 0xAB)] }) }
    meets (.ldparam f) s && ((s.launchOf 0).record.win 0).isSome && runs (.ldparam f) s (fun t => decide (t.getV 0 4 = 0xAB) && decide (t.getV 0 5 = 0) && decide (t.getP 0 2 = 2)) &&
    (let z := withQueue lazyPage (ring 3 1)
     meets (.pagereq p) z && (match z.xlate 0 (some 0) 0x10000 with | .absent e => e.state == 1 | _ => false) &&
       (match z.kindQueue 0 3 with | some (_, q) => !q.full | none => false) && runs (.pagereq p) z (fun t => (t.pageWaits.find 1).isSome)) &&
    meets (.pagereq (mf (.v 0) (.g 1) (.p 0))) mem0 && runs (.pagereq (mf (.v 0) (.g 1) (.p 0))) mem0 (fun t => t.pageWaits == []) &&
    meets (.qctl q) mem0 && decide (mem0.cwQueue 0 256 = none) && runs (.qctl q) mem0 (fun t => decide (t.getU 0 4 = 0x0001000000000000)) &&
    (let z := (withQueue mem0 { ring 1 8 with head := 1, tail := 3 }).setU 0 1 0x400
     meets (.qctl q) z && (match z.cwQueue 0 0x400, z.freshQueue 0 0 with | some (h, _), some y => h == 0 && y.count == 2 | _, _ => false) &&
       runs (.qctl q) z (fun t => decide (t.getU 0 4 = 0x0000010000000002)) && runs (.qctl { q with subop := 1 }) z (fun t => decide (t.getU 0 4 = 0x0002000000000000)) &&
       meets (.qctl { q with subop := 3 }) z && runs (.qctl { q with subop := 3 }) z (fun t => decide ((t.thread 0).pc = 1)) &&
       meets (.qctl { q with subop := 4 }) z && runs (.qctl { q with subop := 4 }) z (fun t => decide (t.getU 0 4 = 0x0000010000000002))) &&
    (let z := withQueue lazyPage { ring 3 1 with tail := 8 }
     meets (.pagereq p) z && Spec.acts (Instr.pagereq p).uses z 0 && !z.pagePending 0 1 && (match z.kindQueue 0 3 with | some (_, q) => q.full | none => false) &&
       runs (.pagereq p) z (fun t => decide ((t.thread 0).st = .waiting (.pipe 2)))) &&
    ([(0, 0, 1), (1, 8, 2)] : List (Nat × Nat × BitVec 4)).all (fun x =>
      let z := (withQueue mem0 { ring x.1 8 with tail := x.2.1 }).setU 0 1 0x400
      let f := { q with subop := x.2.2 }
      meets (.qctl f) z && Spec.acts (Instr.qctl f).uses z 0 && (z.ldFind 0 0x400 32).trap?.isNone && (z.cwQueue 0 0x400).isSome && (z.freshQueue 0 0).any (fun y => y.count == x.2.1) &&
      runs (.qctl f) z (fun t => match (t.thread 0).st with | .waiting (.room 0x400 _) => true | _ => false))) = true := by
  decide +kernel

/-! ## Pins, reclaim, generations, barrier objects, tokens and tiles -/

/-- Partition 0 with its first generation open; g4 holds a name. -/
def live : State := (mem0.updPart 0 (fun p => { p with gens := [(0, { num := 0, state := 1 })] })).setU 0 4 0x1234
def solo (i : Instr) (s : State) : Bool := meets i s && Spec.alone i.uses s 0
theorem witness_PinsAndReclaims : (solo (.pin (vf (.pin 1) (.g 4))) live &&
    runs (.pin (vf (.pin 1) (.g 4))) live (fun t => decide (t.getPin 0 1 = 0x8000000000001234)) &&
    (let s := (live.setPin 0 1 0x8000000000000007).updPart 0 (fun p => { p with reclaims := [(7, { creator := 0, die := 0 })] })
     meets (.pin (vf (.pin 1) (.g 4))) s && decide (s.ordWait 0 2 = none) && runs (.pin (vf (.pin 1) (.g 4))) s (fun t => ((t.part 0).reclaims.find 7).any (·.redo)) &&
     meets (.unpin (vf (.pin 1))) s && decide (s.ordWait 0 2 = none) && runs (.unpin (vf (.pin 1))) s (fun t => decide (t.getPin 0 1 = 7))) &&
    meets (.snap (vf (.g 5))) live && (live.part 0).curSerial != (live.part 0).nextSerial && decide (live.ordWait 0 3 = none) && (live.part 0).liveGens < 16 &&
    runs (.snap (vf (.g 5))) live (fun t => decide (t.getU 0 5 = 2) && (t.part 0).curSerial == 1) &&
    (let s := live.updPart 0 (fun p => { p with gens := (0, { num := 0, state := 1 }) :: (List.range 15).map (fun k => (k + 2, { num := k + 1, state := 2 })) })
     meets (.snap (vf (.g 5))) s && 16 ≤ (s.part 0).liveGens && runs (.snap (vf (.g 5))) s (fun t => decide (t.getU 0 5 = 7))) &&
    meets (.snapq (vf (.g 5) (.v 1))) live && runs (.snapq (vf (.g 5) (.v 1))) live (fun t => decide (t.getU 0 5 = 1))) = true := by decide +kernel
def reclaimI : Instr := .reclaim (vf (.v 5) (.g 4))
theorem witness_PinsAndReclaims_reclaim : (solo reclaimI live && !live.storesPending 0 && decide (live.acqWait 0 = none) && live.coreSearches 0 < 64 &&
    (let s := after reclaimI live
     match s.searches, s.fills, (s.part 0).reclaims with
     | [(id, q)], [(fid, x)], [(name, e)] => q.fills == [fid] && decide (x.dst = [.v 0 5]) && decide (x.flag = none) && name == 0x1234 && q.name == name && e.running &&
         q.first && !x.gone && s.live (gidOf x.tid) == [0] && s.searchFinds q == 0 && runs (.pinSearchDone id) s (fun t => (t.part 0).reclaims == [] && decide (t.getV 0 5 = 0)) &&
         (let y := live.setPin 0 1 0x8000000000001234
          let z := after reclaimI y
          (z.searches.find id).any (fun q => z.searchFinds q == 1) && runs (.pinSearchDone id) z (fun t => decide (t.getV 0 5 = 0x10001)))
     | _, _, _ => false) &&
    (let s := live.updPart 0 (fun p => { p with reclaims := [(0x1234, { creator := 5, die := 0 })] })
     solo reclaimI s && runs reclaimI s (fun t => ((t.part 0).reclaims.find 0x1234).any (·.joined)))) = true := by decide +kernel
/-- A full list. -/
theorem witness_PinsAndReclaims_full : (let s := live.updPart 0 (fun p => { p with reclaims := (List.range 4096).map (fun k => (k + 10000, { creator := 0, die := 0 })) })
    solo reclaimI s && decide ((s.part 0).reclaims.find 0x1234 = none) && 4096 ≤ (s.part 0).reclaims.length &&
    runs reclaimI s (fun t => t.fills.map (fun e => e.2.what) == [.value 3])) = true := by decide +kernel
theorem witness_PinsAndReclaims_after : (let e : Reclaim := { creator := 0, die := 0, redo := true }
    let s := live.updPart 0 (fun p => { p with reclaims := [(9, e)] })
    runs (.reclaimResearch 0 9) s (fun t => match t.searches with
      | [(id, q)] => q.name == 9 && q.fills == [] && !q.first && decide (t.kindQueue 0 4 = none) && runs (.pinSearchDone id) t (fun u => ((u.part 0).reclaims.find 9).any (·.complete))
      | _ => false) &&
    (let z := withQueue (live.updPart 0 (fun p => { p with reclaims := [(9, { e with complete := true })] })) (ring 4 1)
     (match z.kindQueue 0 4, z.queue 0 0 with | some (h, q), some y => h == 0 && q.kind == 4 && !q.full && decide (q = y) && z.queueSound 0 q | _, _ => false) &&
     runs (.reclaimCompletionPost 0 9) z (fun t => (t.part 0).reclaims == [] && (match t.queue 0 0 with | some q => q.tail == 1 | none => false) &&
       (match t.kindQueue 0 4 with | some (_, q) => (q.tail + 2 ^ 32 - q.nextClaim) % 2 ^ 32 == 1 && t.queueSound 0 q | none => false) &&
       solo (.reclwait (vf (.v 8) (.p 1))) t && decide (t.acqWait 0 = none) && runs (.reclwait (vf (.v 8) (.p 1))) t (fun u => decide ((u.thread 0).pc = 1)))) &&
    solo (.reclwait (vf (.v 8) (.p 1) (sel := 1))) live && decide (live.kindQueue 0 4 = none) &&
    runs (.reclwait (vf (.v 8) (.p 1) (sel := 1))) live (fun t => decide (t.getP 0 1 = 1)) &&
    runs (.reclwait (vf (.v 8) (.p 0))) live (fun t => decide ((t.thread 0).st = .waiting .reclaim))) = true := by decide +kernel

/-- g0 names the object at byte 0x100 of the slice. -/
def object (o : Barrier) : State := (mem0.setBarrier (scratchBase + 256) o).setV 0 2 1
def on (i : Instr) (s : State) : Bool :=
  solo i s && decide (s.objWait 0 (s.vaOf 0 (.g 0)) 16 = none) && s.vaOf 0 (.g 0) == flatBase + 256 && !s.poisoned (scratchBase + 256) 16 &&
  [true, false].all (fun w => match s.scratchAt 0 (flatBase + 256) 16 w with | .ok pa => pa == scratchBase + 256 | _ => false)
theorem witness_BarriersTokensAndTiles : (let b : Barrier := { bal := 0, pend := 2, per := 2, phase := 0, scope := 2, extra := false, balerr := false }
    let a := af (.v 0) (.g 0) (.v 2)
    let at' := fun (i : Instr) (s : State) (o : Barrier) => on i s && runs i s (fun t => decide (t.barrierAt (scratchBase + 256) = o))
    let m (n : BitVec 16) := af (.v 0) (.g 0) (imm16 := n)
    at' (.binit { a with lo := 2 }) (object b) { b with pend := 1, per := 1 } && at' (.binitI { m 2 with lo := 2 }) (object { b with pend := 7 }) b &&
    at' (.arrive a) ((object b).setV 0 2 0) { b with pend := 1 } && at' (.arriveI (m 64)) (object b) { b with pend := 1, bal := 64 } &&
    at' (.arriveI (m 0)) (object { b with pend := 1 }) { b with phase := 1 } && at' (.arriveI (m 0)) (object { b with pend := 0, bal := 5 }) { b with pend := 0, bal := 5, extra := true } &&
    on (.waitphase a) (object b) && runs (.waitphase a) (object b) (fun t => decide ((t.thread 0).pc = 1)) &&
    runs (.waitphaseI (m 0)) (object b) (fun t => decide ((t.thread 0).st = .waiting (.phase (scratchBase + 256) 0))) && on (.waitphaseI (m 0)) (object b) &&
    on (.testphase { a with res := .p 2 }) (object b) && runs (.testphase { a with res := .p 2 }) (object b) (fun t => decide (t.getP 0 2 = 1)) &&
    on (.testphaseI { m 0 with res := .p 2 }) (object b) && runs (.testphaseI { m 0 with res := .p 2 }) (object b) (fun t => decide (t.getP 0 2 = 0))) = true := by decide +kernel
theorem witness_BarriersTokensAndTiles_tokens : (let w := af (.v 0) (.v 0) (.v 2)
    let p := af (.v 5) (poll := true)
    let s := (mem0.setV 0 2 9).arm 0 3
    solo (.tokwait w) s && runs (.tokwait w) s (fun t => decide ((t.thread 0).st = .waiting (.tokens 9))) && solo (.tokwait w) (s.setV 0 2 7) &&
    runs (.tokwait w) (s.setV 0 2 7) (fun t => decide ((t.thread 0).pc = 1)) && solo (.tokwait p) s && runs (.tokwait p) s (fun t => decide (t.getV 0 5 = 0xF7))) = true := by
  decide +kernel
/-- A tile reference to 512 bytes (SZ 1) at byte 0x200 of the slice: units 2 and 3 of it; as a reference to an empty tile with bit 63. -/
def tileRef : State := (mem0.setU 0 4 (BitVec.ofNat 64 (flatBase + 512 + 2 ^ 56))).setU 0 5 (BitVec.ofNat 64 (flatBase + 512 + 2 ^ 56 + 2 ^ 63))
theorem witness_BarriersTokensAndTiles_tiles : (let f := Instr.tfill (af (.v 0) (.g 4))
    let e := Instr.tempty (af (.v 0) (.g 4))
    let w := Instr.twait (af (.v 0) (.g 4))
    let p := Instr.twait (af (.p 2) (.g 4) (poll := true))
    let full := after f tileRef
    [true, false].all (fun w => match tileRef.refAt 0 (tileRef.src64 0 (.g 4)).toNat w with | .ok pa => pa == scratchBase + 512 | _ => false) && solo f tileRef &&
    decide (tileRef.ordWait 0 2 = none) && full.fullUnits == [scratchBase / 256 + 2, scratchBase / 256 + 3] && solo e full &&
    runs e full (fun t => t.fullUnits == []) && solo w full && decide (full.acqWait 0 = none) && runs w tileRef (fun t => decide ((t.thread 0).st ≠ .ready)) &&
    runs w full (fun t => decide ((t.thread 0).st = .ready)) && solo p tileRef && runs p tileRef (fun t => decide (t.getP 0 2 = 0)) && runs p full (fun t => decide (t.getP 0 2 = 1)) &&
    runs (.twait (af (.v 0) (.g 5))) tileRef (fun t => decide ((t.thread 0).st = .ready))) = true := by decide +kernel

/-- SCALL of call number 0x8001 with one argument in g0 and four results from g4 on. -/
def call : IForm := jf (.g 4) (.g 0) 0x218001
/-- An instruction that would arm a token with an operation outstanding. -/
theorem witness_BarriersTokensAndTiles_arming : (let s := mem0.arm 0 3
    let h := Spec.head 0 true 3
    (Instr.scall { call with h := h } :: ([.copy, .gcopy, .mloadw, .mloadwI, .mswap, .mma, .mzero, .mhad, .mhadI, .mdrain] : List (AForm → Instr)).map (fun c =>
      c (af (.v 0) (.g 0) (.p 0) (.v 3) (h := h)))).all (fun i =>
      decide (i.uses.h = h) && (s.threads.find 0).isSome && !s.undeclared i.uses 0 && decide (s.entryTrap 0 = none) &&
      (regsOf 0 (.p h.guard) 1).all (fun r => !s.isEmpty r) && s.guardOn h 0 &&
      decide (s.blocking i.uses 0 = []) && ((s.group 0).token 3).ops != 0 && runs i s (fun t => decide ((t.thread 0).st = .waiting (.tokens 8))))) = true := by
  decide +kernel

/-! ## Copies (R264 to R279, R414, R420) -/

/-- A layout record by its fields (R264): SRC, DST, EXT0, EXT1, one format for both sides, NDIM, STR1, IDX. -/
def layout (src dst e0 e1 fmt ndim str idx : Nat) : List Byte :=
  toLE 7 src ++ [0] ++ toLE 8 dst ++ toLE 2 e0 ++ toLE 2 e1 ++ toLE 6 0 ++ toLE 1 (fmt + 16 * fmt) ++ toLE 1 ndim ++ toLE 4 str ++ toLE 24 0 ++ toLE 8 idx
/-- A record at byte 0x100 of the slice, four bytes at 0x300 of the page in DRAM, and a slice word of `n` from 0. -/
def copyAt (r : List Byte) (n : Nat) : State := ((mem0.store (scratchBase + 256) r).store 0x300 [1, 2, 3, 4]).setV 0 3 (BitVec.ofNat 32 (n * 65536))
def plainCopy : State := copyAt (layout 0x300 (flatBase + 0x800) 4 0 2 1 0 0) 4
def gathered : State := copyAt (layout 0x300 (flatBase + 0x800) 2 2 2 2 2 0x500) 2
def lost : State := copyAt (layout 0x30000 (flatBase + 0x800) 4 0 2 1 0 0) 4
def copyF : AForm := af (.v 0) (.g 0) (.p 0) (.v 3) (h := Spec.head 0 true 3)
def mayCopy (gather : Bool) (s : State) (count : Nat) : Bool :=
  decide (s.objWait 0 (s.vaOf 0 (.g 0)) 64 = none) && (match s.scratchAt 0 (s.vaOf 0 (.g 0)) 64 false with | .ok pa => pa == scratchBase + 256 | _ => false) &&
  !s.poisoned (scratchBase + 256) 64 && s.layoutOk 0 gather (layoutOf (s.load (scratchBase + 256) 64)) 0 count && decide (s.barrierVa copyF 0 = none) &&
  (s.slotsHeld 0).length < 128 && (s.groups.find 0).isSome
theorem witness_CopiesAreSupplied : (solo (.copy copyF) plainCopy && mayCopy false plainCopy 4 && decide (plainCopy.openColl 0 (flatBase + 256) = none) &&
    runs (.copy copyF) plainCopy (fun t => t.colls.length == 1 && ((t.group 0).token 3).ops == 1 && decide ((t.thread 0).pc = 1)) &&
    solo (.gcopy copyF) gathered && mayCopy true gathered 2 && runs (.gcopy copyF) gathered (fun t => t.colls.map (fun e => e.2.gather) == [true])) = true := by
  decide +kernel
theorem witness_LandingsAndCopyFaults : (let s := after (.copy copyF) plainCopy
    match s.colls with
    | [(id, c)] => !c.started && !(layoutOf c.record).toTile && c.wg == (s.launch 0).record.inst (s.group 0) (s.launch 0).record.wgLevel &&
        c.slices.map (fun x => (x.gid, x.left)) == [(0, [(0, 4)])] &&
        (let u := after (.collectiveStart id) s
         match u.colls.find id with
         | some d => let y := layoutOf d.record
           d.started && u.supplied d && (match d.slices.zipIdx.find? (fun z => inRanges 3 z.1.left) with | some (x, i) => i == 0 && decide (x.barrier = none) | none => false) &&
           Spec.plain y && elBytes y.dfmt == 1 && !d.gather && (d.srcPieces y 3).map (·.1) == [0x303] &&
           decide (u.probeSrc 0 0 0x303 = .ok 0x303) && y.dstVa 3 == flatBase + 0x803 && decide (u.probeDst 0 0 (y.dstVa 3) = .ok (scratchBase + 0x803)) &&
           !(u.launch 0).replayable && (u.tloads.find id).isNone
         | none => false)
    | _ => false) = true := by decide +kernel
/-- A landing carries its whole sector part: a copy whose units lie 32 bytes apart lands them one by one. -/
theorem witness_LandingsAndCopyFaults_unit : (let s := after (.copy copyF) (copyAt (layout 0x300 (flatBase + 0x83F) 2 0 2 1 0 0) 2)
    match s.colls with
    | [(id, _)] =>
      let u := after (.collectiveStart id) s
      (match u.colls.find id with
       | some d => let y := layoutOf d.record
         y.dstVa 1 % 32 + 1 ≤ 32 && d.slices.any (fun x => x.due y 1 == (0, 1) &&
           (rangesAll x.left).filter (fun k => let w := x.dueIn y k (y.dstVa 1 / 32); decide (w.1 < w.2)) == [1])
       | none => false) && runs (.elementLanding id 1) u (fun t => t.load (scratchBase + 0x840) 1 == [2] && t.load (scratchBase + 0x83F) 1 == [0])
    | _ => false) = true := by decide +kernel
theorem witness_LandingsAndCopyFaults_report : (let s := after (.copy copyF) lost
    match s.colls with
    | [(id, _)] =>
      let u := after (.elementLanding id 0) (after (.collectiveStart id) s)
      match u.colls.find id with
      | some d => decide (d.reportTo = none) && d.report == [] && (match d.first u d.parked with
          | some p => p.va == 0x30000 && decide (u.reportThread d p = some 0) | none => false) &&
        (let v := after (.copyFaultReport id) u
         (v.thread 0).reports.map (fun r => (r.cause, r.i0)) == [(.copyFault, BitVec.ofNat 64 (flatBase + 256))] &&
         (let w := v.setU 0 4 (BitVec.ofNat 64 (flatBase + 256))
          let i := af (.v 0) (.g 4)
          (match w.namedReport 0 (w.src64 0 (.g 4)).toNat with | some (k, c) => k == id && c.report != [] && c.report.all (fun p => p.kind != 4 && p.side == 0 && c.dueOf p == (0, 1)) | none => false) &&
          solo (.cretry i) w && runs (.cretry i) w (fun t => match t.colls.find id with | some c => c.report == [] && c.parked == [] | none => false) &&
          solo (.cskip i) w && runs (.cskip i) w (fun t => t.load (scratchBase + 0x800) 1 == [0])))
      | none => false
    | _ => false) = true := by decide +kernel

/-! ## The Firebox (R247 to R263, R403 to R413) -/

/-- A BF16 record of one row of 48 elements: V, KCH 2, EXT 2 units from unit 0 (R249). In g4 to g7. -/
def bfTile (baseu : Nat) : BitVec 256 := BitVec.ofNat 256 (2 ^ 255 + 2 * 2 ^ 192 + 2 * 2 ^ 16 + baseu)
def tiles : State := (((mem0.setU 0 4 0x20000).setU 0 7 0x8000000000000002).setT 0 1 (bfTile 0)).setT 0 2 (bfTile 2)
def can (s : State) : Bool := (s.matq.getD 0 []).length < 32
theorem witness_MatrixOperationsAreQueued : (solo (.tres (af (.t 3) (.g 4))) (tiles.setU 0 4 0x20004) && !tiles.tileQueued 0 3 &&
    tiles.mayReserve 0 1 ((tiles.setT 0 1 0).recordOf 0 (.g 4)) && runs (.tres (af (.t 1) (.g 4))) tiles (fun t => decide (t.getT 0 1 = bfTile 0)) &&
    runs (.tres (af (.t 3) (.g 4))) (tiles.setU 0 4 0x20004) (fun t => decide (t.getT 0 3 = bfTile 4)) &&
    solo (.trel (af (.t 1))) tiles && runs (.trel (af (.t 1))) tiles (fun t => decide (t.getT 0 1 = 0)) &&
    (let f := af (.t 1) (.g 0) (.p 0)
     solo (.tload f) tiles && !tiles.storesPending 0 && !tiles.fillsPending 0 && decide ((tloadOp f).cause tiles 0 = none) &&
     (match tiles.scratchAt 0 (tiles.vaOf 0 (.g 0)) 64 false with | .ok pa => pa == scratchBase + 256 | _ => false) &&
     runs (.tload f) tiles (fun t => decide ((t.thread 0).st = .waiting .tload) && (match t.tloads with
       | [(id, x)] => x.left == [(0, 4)] && !t.poisoned x.src 32 && inRanges 3 x.left && x.src == scratchBase + 256 &&
           runs (.elementLanding id 0) t (fun u => u.opByte 0 0 == 1 && u.opByte 0 7 == 8) && runs (.elementLanding id 3) t
       | _ => false)))) = true := by decide +kernel
theorem witness_MatrixOperationsAreQueued_queue : (let w (n : Nat) := BitVec.ofNat 32 n
    let s := ((tiles.setV 0 1 24).setV 0 2 16).setV 0 3 (w (65536 + 127))
    let one' := fun (i : Instr) => solo i s && can s && runs i s (fun t => (t.matq.getD 0 []).length == 1 && decide ((t.thread 0).pc = 1))
    let tl := s.tile 0 1
    tl.v && !badPair 16 16 && !s.emberBad tl && (s.launchOf 0).record.accs == 8 && stepE 16 16 == 24 && tl.k == 48 && tl.rows == 1 && tl.sparse == 0 && (s.tile 0 2).v &&
    one' (.mloadw (af (.v 0) (.t 1) (.v 1))) && one' (.mloadwI (af (.v 0) (.t 1) (imm16 := 24))) && one' (.mswap (af (.v 0))) &&
    one' (.mhad (af (.t 2) (.t 1) (.v 2))) && one' (.mhadI (af (.t 2) (.t 1) (imm16 := 16))) && one' (.mzero (af (.a 1))) &&
    one' (.mdrain (af (.v 0) (.a 0) (.g 0) (.v 3))) && s.inScratch 0 (flatBase + 256) 512 true && decide (s.acqWait 0 = none) && one' (.mread (af (.v 8) (.a 0) (.v 1))) &&
    runs (.mread (af (.v 8) (.a 0) (.v 1))) s (fun t => t.isEmpty (.v 0 8) && t.isEmpty (.v 0 11))) = true := by decide +kernel
/-- An MMA block (R255): one row of the tile in t2 into a0, ANCHOR 0; its plane holds MLOADW of t1 at 0. -/
def block (gang : Nat) : List Byte := toLE 4 0 ++ toLE 2 1 ++ toLE 2 0 ++ toLE 2 0 ++ [0, 2, 1, BitVec.ofNat 8 gang] ++ toLE 50 0
def product (gang : Nat) : State :=
  let s := ((tiles.setOpByte 0 1 0x3F).setOpByte 0 0 0x80).setOpByte 0 129 0x40
  let s := { s with launches := s.launches.upd 0 (fun l => { l with record := { l.record with nlev := 4, domains := [0, 1], exts := [1, 1] } }) }
  ({ s with planesA := [(0, s.fillPlane 0 (s.getT 0 1) 0 24)], cur := { s.cur with pc := 0 } }).store (scratchBase + 256) (block gang)
def mmaF : AForm := af (.v 0) (.g 0)
def mayMma (s : State) : Bool :=
  solo (.mma mmaF) s && can s && decide (s.objWait 0 (flatBase + 256) 64 = none) && !s.poisoned (scratchBase + 256) 64 &&
  decide (s.blockCause 0 [] (blockOf (s.load (scratchBase + 256) 64)) = none)
theorem witness_MatrixOperationsAreQueued_mma : (mayMma (product 0) && mayMma (product 1) &&
    runs (.mma mmaF) (product 0) (fun t => (t.matq.getD 0 []).length == 1) && runs (.mma mmaF) (product 1) (fun t => (t.matq.getD 0 []).length == 1) &&
    (product 1).gangPeers 0 [0] == [some 0]) = true := by decide +kernel
/-- 1.0 times 2.0 at the first element (R241). -/
theorem witness_MatrixOperationsRun : (let s := after (.mma mmaF) (product 0)
    match s.matq.getD 0 [], s.planesA.find 0 with
    | [q], some p => (match q.op with
        | .mma b _ 0 0 el wf afm => let bl := blockOf b
          bl.accs == [0] && p.e == el && (tileOf p.tag).fmt == wf && afm == some 0 && stepE (fmtBits wf) 16 == el && !badPair (fmtBits wf) 16 &&
          s.matq.filter (fun x => x.1 == 0 || x.2.any (·.partOf q)) == [(0, [q])] && bl.ak0 % p.span == 0 && (s.getAcc 0 0).blank && p.span == 24 &&
          decide (s.elem 0 (s.tile 0 2) 0 0 = Flt.bf16.decode 0x4000) && decide (s.weight 0 p 0 0 = Flt.bf16.decode 0x3F80) &&
          (Flt.toAX96 (Flt.mul (s.elem 0 (s.tile 0 2) 0 0) (s.weight 0 p 0 0)) 0).isSome
        | _ => false) && s.live 0 == [0] && (s.groups.find 0).isSome && !s.drainWaits q
    | _, _ => false) = true := by decide +kernel
/-- A part of an MMA that does not head its core's queue keeps the others waiting. -/
theorem witness_MatrixOperationsRun_together : (let s := after (.mma mmaF) (product 0)
    match s.matq.getD 0 [] with
    | [q] =>
      let z := { s with matq := [(0, [q]), (1, [{ tid := 0, tok := none, op := .mswap }, q])] }
      z.matq.any (fun x => x.2.any (·.partOf q) && !x.2.head?.any (·.partOf q)) && !z.drainWaits q && runs (.matrixOpExecute 0 true) z (fun t => t.matq == z.matq)
    | _ => false) = true := by decide +kernel
theorem witness_MatrixOperationsRun_others : (let q := fun (i : Instr) => after i tiles
    runs (.matrixOpExecute 0 true) (q (.mloadwI (af (.v 0) (.t 1)))) (fun t => (match t.planesS.find 0 with | some p => decide (p.tag = bfTile 0) && p.e == 24 | none => false) && t.matq == []) &&
    runs (.matrixOpExecute 0 true) (after (.mswap (af (.v 0))) (product 0)) (fun t => t.planesA == [] && (t.planesS.find 0).isSome) &&
    runs (.matrixOpExecute 0 true) (q (.mzero (af (.a 1)))) (fun t => decide (t.getAcc 0 1 = {})) &&
    runs (.matrixOpExecute 0 true) (after (.mread (af (.v 8) (.a 0) (.v 1))) (tiles.setAcc 0 0 { entries := [(0, 5)], sums := [(0, 5)], blank := false }))
      (fun t => decide (t.getV 0 8 = 5) && decide (t.getV 0 11 = 0) && t.fills == []) &&
    (tiles.getAcc 0 0).rowOk 127 &&
    -- MHAD of a row whose first element is 1.0, and MDRAIN of row 127 to FP32
    (let z := (tiles.setOpByte 0 1 0x3F).setOpByte 0 0 0x80
     runs (.matrixOpExecute 0 true) (after (.mhadI (af (.t 2) (.t 1) (imm16 := 16))) z) (fun t => t.getCode 0 (tileOf (bfTile 2)) 0 0 == 0x3F80 &&
       t.getCode 0 (tileOf (bfTile 2)) 0 15 == 0x3F80 && t.getCode 0 (tileOf (bfTile 2)) 0 16 == 0)) &&
    (let z := ((tiles.setV 0 3 0x1007F).setU 0 0 (BitVec.ofNat 64 (flatBase + 512))).setAcc 0 0 { entries := [(127 * 256, 3)], sums := [(127, 3)], blank := false }
     let y := after (.mdrain (af (.v 0) (.a 0) (.g 0) (.v 3) (lo := 9))) z
     [0, 512, 1023].all (fun i => match y.xlate 0 none (flatBase + 512 + i) with | .leaf pa _ => pa == scratchBase + 512 + i && !y.lostDie pa | _ => false) &&
     runs (.matrixOpExecute 0 true) y (fun t => t.load (scratchBase + 512) 4 == [0, 0, 0x40, 0x40] && t.load (scratchBase + 256) 2 == [1, 2]))) = true := by decide +kernel

/-! ## System (R79 to R83, R286, R423 to R431) -/

theorem witness_SpecialRegisters : (let g := fun (imm : W32) => Instr.getsr (jf (.v 4) (.v 0) imm)
    meets (g 3) base && runs (g 3) base (fun t => decide (t.getV 0 4 = 8)) && meets (g 0x2A) base && runs (g 0x2A) base (fun t => decide (t.getV 0 4 = 65536)) &&
    meets (g 0x2B) base && runs (g 0x2B) base (fun t => decide (t.src64 0 (.v 4) = 0x00F0000000000000)) && meets (g 0x29) live && runs (g 0x29) live (fun t => decide (t.getV 0 4 = 0)) &&
    meets (g 0x19) base && runs (g 0x19) base (fun t => t.isEmpty (.v 0 4) && t.isEmpty (.v 0 5)) &&
    (let s := (base.setV 0 6 2).updThread 0 (fun h => { h with paramBound := true, ceiling := true })
     meets (.setsr (jf (.v 0) (.v 6) 0x26)) s && runs (.setsr (jf (.v 0) (.v 6) 0x26)) s (fun t => !(t.thread 0).paramBound && (t.thread 0).ceiling) &&
     meets (.setsr (jf (.v 0) (.v 6) 0x20)) s && runs (.setsr (jf (.v 0) (.v 6) 0x20)) s (fun t => (t.thread 0).paramBound)) &&
    meets (.cntrd (vf (.g 5) (.v 1))) base && meets (.cntrdI (jf (.g 5) (.v 0) 0x10000000)) base &&
    (let s := after (.cntrdI (jf (.g 5) (.v 0) 0x10000000)) { base with ctrs := [(ctrNo 1 0 0, 7)] }
     match s.fills with
     | [(id, x)] => decide (x.what = .ctr (ctrNo 1 0 0) 0) && decide (x.dst = [.u 0 5]) && decide (x.flag = none) && runs (.loadFill id) s (fun t => decide (t.getU 0 5 = 8))
     | _ => false)) = true := by decide +kernel
theorem witness_QuietFrame : ([Instr.yield (vf (.v 0)), .sleep (jf (.v 0) (.v 0) 5), .nopre (vf (.v 0)), .preok (vf (.v 0)), .getsr (jf (.v 4) (.v 0) 3), .setsr (jf (.v 0) (.v 6) 0x26),
    .cntrd (vf (.g 5) (.v 1)), .cntrdI (jf (.g 5))].all (fun i => meets i eight && runs i (eight.setV 3 7 9) (fun t => decide (t.getV 3 7 = 9) && t.stores == []))) = true := by
  decide +kernel

def called : State := after (.scall call) (withQueue live (ring 2 2))
theorem witness_Calls : (solo (.scall call) live && !live.groupUnheld 0 && decide (live.kindQueue 0 2 = none) && (live.part 0).calls == [] && !call.h.arm &&
    runs (.scall call) live (fun t => decide ((t.thread 0).st = .waiting (.callRing (live.part 0).freeTag))) && solo (.scall call) (withQueue live (ring 2 2)) &&
    (match (withQueue live (ring 2 2)).kindQueue 0 2 with | some (h, q) => h == 0 && q.kind == 2 && !q.full && (withQueue live (ring 2 2)).queueSound 0 q | none => false) &&
    (match (called.part 0).calls with | [(tag, c)] => c.posted && c.args == [live.getU 0 0] && decide ((called.thread 0).st = .waiting (.call tag)) | _ => false) &&
    (let s := withQueue (after (.scall call) live) (ring 2 2)
     (match (s.part 0).calls.find? (fun e => e.2.gid == 0 && !e.2.posted) with | some (tag, c) => c.tag == tag && decide (c.tok = none) | none => false) &&
     runs (.callRecordPost 0) s (fun t => (t.part 0).calls.all (fun e => e.2.posted)))) = true := by decide +kernel
theorem witness_Calls_service : (let s := called.updPart 0 (fun p => { p with flowCall := 250 })
    match (s.part 0).calls, s.kindQueue 0 2 with
    | [(tag, c)], some (0, q) => q.count == 1 && s.queueSound 0 q && s.mayPop 0 q && !(s.part 0).frozen && s.served .service && s.pkg.arbiter == 0 && fieldLE (s.headEntry 0 q) 8 4 == tag && c.tag == tag && !c.taken &&
        (let t := after (.callServe 0 false) s
         (match t.queue 0 0 with | some q => q.head == 1 | none => false) && (t.part 0).calls.all (fun e => e.2.taken) && !(t.group 0).halted && c.resBase + c.nres == 8 &&
         !hyperNumber 0x1234 &&
         (let u := t.updPart 0 (fun p => { p with calls := [(tag, { c with taken := true, callno := 0x1234 })] })
          runs (.callReply 0 tag [1, 2, 3, 4]) u (fun v => decide (v.getU 0 7 = 4) && decide ((v.thread 0).st = .ready) && (v.part 0).calls == [])))
    | _, _ => false) = true := by decide +kernel

/-- A fixed page at 0x30000 on frame 5. -/
def fixedPage : State :=
  { live.setPage 0 3 { valid := true, fix := true, reach := 1, owner := 0, addr := 5 * frameBytes, w := true, rd := true } with
    own := live.own.put 5 { owner := 0, epoch := 0, fix := true, maps := 1 } }
/-- The same for a launch that declares eight vector and four uniform registers. -/
def smallPage : State :=
  { fixedPage with launches := fixedPage.launches.upd 0 (fun l =>
      { l with record := { l.record with vgran := 1, ggran := 1, tregs := 0, accs := 0, opbuf := 0, scratch := 0, pinclass := false } }) }
def signed : State := (live.setU 0 4 (BitVec.ofNat 64 (flatBase + 1024))).setU 0 5 (BitVec.ofNat 64 (flatBase + 256))
theorem witness_ReportsAndStops : (let i := Instr.sigrd (vf (.v 0) (.g 4) (.g 5))
    solo i signed && decide (signed.acqWait 0 = none) && decide (signed.ldWait 0 [flatBase + 256, flatBase + 288] 32 true = none) &&
    [(flatBase + 1024, true), (flatBase + 1600, true), (flatBase + 256, false)].all (fun x => match signed.scratchAt 0 x.1 64 x.2 with | .ok _ => true | _ => false) &&
    !signed.poisoned (scratchBase + 256) 64 &&
    (let s := after i signed
     decide ((s.thread 0).st = .waiting .report) && (match s.sigrds.find 0 with
       | some q => q.nonce.length == 64 && q.buf % 64 == 0 && q.buf % frameBytes + 592 ≤ frameBytes && !(s.group 0).halted &&
           !s.lostDie q.buf && !s.needsAside 0 q.buf | none => false) &&
     (let u := s.updPart 0 (fun p => { p with flowCall := 250 })
      u.served .service && u.pkg.arbiter == 0 && 250 ≤ u.flowDeficit 0 && u.flowWaits 0)) &&
    solo (.haltW (vf (.v 0) (.g 4) (.v 1))) live && (live.instGroups 0 0) == [0] && live.groups.sorted && decide ((live.group 0).hold = none) &&
    runs (.haltW (vf (.v 0) (.g 4) (.v 1))) live (fun t => (t.group 0).halted && (t.group 0).stopped) && smallPage.dumpOk 0 0x30000 65536 &&
    (live.groups.find 0).any (fun g => g.space == 0) &&
    (let s := live.updGroup 0 (fun g => { g with halted := true, stopped := true })
     runs (.resumeWg (.owner 0) 0 0 0) s (fun t => !(t.group 0).stopped && t.pkg.replies.any (fun r => r.status == 0)))) = true := by decide +kernel

/-! ## Commands, registers and the package (R30 to R47, R52, R74, R89, R167) -/

/-- The package in full service with every link up and partition 0 with room. -/
def up : State :=
  { live.updPart 0 (fun p => { p with burst := 100, guar := 50, scrcap := 8 }) with
    pkg := { live.pkg with stage := 4, clusters := 0xFFFFFFFF, passed := 0xFFFFFFFF, stackOk := 0xF, fullDie := 0xF,
                           links := (List.range 17).map (fun k => (k, { state := 1 })) } }
/-- The last reply has a status. -/
def ends (i : Instr) (s : State) (status : Nat) : Bool := runs i s (fun t => match t.pkg.replies.getLast? with | some r => r.status == status | none => false)
/-- The fields of each statement at their ends: a word that fits, one that does not, a number out of range, a sealed partition, a writer without rights. -/
theorem witness_CommandRegisters : (let busy := up.updPart 0 (fun p => { p with sealed := true })
    let r := fun (i : Instr) => ends i up 0
    (Reg.ctl (.pctl 63)).there && !(Reg.ctl (.pctl 64)).there && ends (.registerWrite .operator (.pctl 64) 0) up 2 && busy.busyPart 0 && ends (.registerWrite (.owner 0) (.pctl 0) 1) busy 4 &&
    ends (.regrd (.owner 0) 0 0 0 0 0 255) busy 4 && ends (.resumeWg (.owner 0) 0 0 0) busy 4 && ends (.ownershipQuery (.owner 0) 0) busy 4 &&
    (up.wordFits (.ctl (.pctl 0)) 2) && !(up.wordFits (.ctl (.pctl 0)) 3) && ends (.registerWrite (.owner 0) (.pctl 0) 3) up 2 && r (.registerWrite (.owner 0) (.pctl 0) 2) &&
    runs (.registerWrite (.owner 0) (.pctl 0) 2) up (fun t => (t.part 0).migpol == 2) && ends (.registerWrite .auditor (.pctl 0) 2) up 1 &&
    r (.pframesWrite .operator 0 (100 * 2 ^ 32 + 60)) && runs (.pframesWrite .operator 0 (100 * 2 ^ 32 + 60)) up (fun t => (t.part 0).guar == 60) &&
    ends (.pframesWrite .operator 0 (59 * 2 ^ 32 + 60)) up 2 && r (.islopWrite .operator 39 0x4000) && runs (.islopWrite .operator 39 0x4000) up (fun t => t.islandStep 39 == 4) && ends (.islopWrite .operator 39 0x5000) up 2 &&
    r (.trctlWrite (.owner 0) 0 0) && r (.registerWrite .operator (.pcomp 0) (100 * 2 ^ 32 + 1)) && ends (.registerWrite .operator (.pcomp 0) (99 * 2 ^ 32 + 1)) up 2 &&
    ends (.registerWrite .operator (.linkst 16) 16) up 2 && ends (.registerWrite .auditor (.linkst 16) 16) up 1 && (up.fields (.ctl (.pctl 0))).length == 2) = true := by decide +kernel
theorem witness_CommandRegisters_groups : (let s := (up.updGroup 0 (fun g => { g with halted := true })).setV 0 255 7
    (s.groups.find 0).any (fun g => g.space == 0 && g.halted && g.width == 8) &&
    runs (.regrd (.owner 0) 0 0 0 0 0 255) s (fun t => t.pkg.replies.map (·.values) == [[7, 0]]) && runs (.regrd (.owner 0) 0 0 0 0 7 255) s (fun t => t.pkg.replies.map (·.values) == [[0, 1]]) &&
    runs (.regrd (.owner 0) 0 0 0 2 0 0) s (fun t => t.pkg.replies.map (·.values) == [[0xFF, 0]]) &&
    runs (.regwr (.owner 0) 0 0 0 1 0 63 5) s (fun t => decide (t.getU 0 63 = 5)) && runs (.regwr (.owner 0) 0 0 0 3 0 7 0x8001000000000005) s (fun t => decide (t.getPin 0 7 = 0x8000000000000005)) &&
    ends (.regrd .operator 3 63 511 0 0 0) s 1 && ends (.regwr .auditor 0 0 0 0 0 0 0) s 1 && runs (.ownershipQuery (.owner 0) 0) s (fun t => (t.pkg.replies.flatMap (·.values)).map (fun v => v.toNat / 2 ^ 20 % 2) == [1]) &&
    runs (.ownershipQuery .operator (dramFrames + 32767)) s (fun t => (t.pkg.replies.flatMap (·.values)).map (fun v => v.toNat / 2 ^ 25) == [127]) && ends (.kindlingRebind .operator 63 .service) s 0 && up.shares 64 ≤ 48000 &&
    (let z := up.updPart 0 (fun p => { p with callk := 40000, faultk := 8000 })
     48000 < z.shares 64 + 1000 && ends (.kindlingRebind .operator 0 .drain) z 2)) = true := by decide +kernel
theorem witness_PowerAndBringUp : (let p : State := { State.reset with pkg.supply := false }
    let a := after (.powerOn 0xFFFFFFFE) p
    let b := after .stageHostAttach a
    let c := after .stageEmber b
    a.pkg.supply && a.pkg.stage == 0 && a.pkg.boots == 1 && b.pkg.stage == 1 && c.pkg.stage == 2 && c.pkg.emberDie == 1 && c.pkg.clusters == 0xFF00 && c.islandStep 15 == 4 && c.islandStep 31 == 0 &&
    decide (b.pkg.passed &&& dieMask 0 ≠ dieMask 0) && decide (b.pkg.passed &&& dieMask 1 = dieMask 1) &&
    (let d := after .stageFullCompute c
     c.pkg.failed == 0 && d.pkg.stage == 3 && d.pkg.clusters == 0xFFFFFFFE && (d.link 7).state == 1 && runs (.stageFullService []) d (fun t => t.pkg.stage == 4 && (t.link 16).state == 1)) &&
    (let e := after (.stackTrainingFail 3) (after (.stackTrainingFail 3) c)
     let d := after (.stackTrainingFail 3) e
     !e.pkg.stackOk.getLsbD 3 && e.pkg.gone == 0 && d.pkg.failed == 8 && d.pkg.gone == 8 && runs (.stackTrainingFail 1) e (fun t => t.pkg.gone == 0) && runs .stageFullCompute d (fun t => t.pkg.gone == 8 && t.pkg.clusters == 0x00FFFFFE)) &&
    runs .stageFullCompute { c with pkg.failed := 0xF } (fun t => t.pkg.stage == 2) && runs .stageEmber { b with pkg.passed := 0 } (fun t => t.pkg.stage == 1) &&
    runs (.deviceReset 1) up (fun t => t.pkg.stage == 0 && t.pkg.passed == 1 && t.groups == []) && runs .powerLoss up (fun t => !t.pkg.supply)) = true := by decide +kernel
theorem witness_IslandsAndLinks : (runs (.thermalRise 39) up (fun t => t.islandStep 39 == 1 && (t.pkg.islands.getD 39 {}).relock) &&
    runs (.thermalFall 0) up (fun t => t.islandStep 0 == 0) &&
    (let s := { up with pkg.islands := [(39, { therm := 2 })], refCount := [(0, 27000000)] }
     (s.pkg.islands.getD 39 {}).below + 27000000 ≤ (s.ref 0).toNat && runs (.thermalFall 39) s (fun t => t.islandStep 39 == 1)) && runs (.clockRelockDone 39) (after (.thermalRise 39) up) (fun t => !(t.pkg.islands.getD 39 {}).relock) &&
    runs (.linkRateDrop 7 { lane := 0, margin := 5 }) up (fun t => (t.link 7).rate == 1 && (t.link 7).state == 2) && runs (.linkUpreq .operator 7 true) (up.setLink 7 { state := 1, rate := 3 }) (fun t => (t.link 7).rate == 2) &&
    ends (.linkUpreq .operator 7 false) (up.setLink 7 { state := 1, rate := 3 }) 2 && ends (.linkUpreq .operator 7 true) up 2 && ends (.linkUpreq .auditor 7 true) up 1 &&
    runs (.linkRetrainDone 16) (up.setLink 16 { state := 2, rate := 6 }) (fun t => (t.link 16).state == 1) && runs (.linkFlitRetry 0) up (fun t => (t.link 0).state == 1) &&
    runs (.linkDown 16) (up.setLink 16 { state := 1, rate := 6 }) (fun t => (t.link 16).state == 3) && runs (.linkDown 8) (up.setLink 8 { state := 2, rate := 4 }) (fun t => (t.link 8).state == 3) &&
    (let s := { up with pkg.tests := [31], pkg.testing := [31] }
     s.pkg.testing.contains 31 && runs (.infieldTestDone 31 true) s (fun t => t.pkg.tests == [] && t.pkg.clusters == 0xFFFFFFFF) && runs (.infieldTestDone 31 false) s (fun t => t.pkg.clusters == 0x7FFFFFFF))) =
    true := by decide +kernel
/-- A link between dies whose going down leaves a die with no path: the die's other links are down already. -/
theorem witness_IslandsAndLinks_path : (List.range 8).any (fun k =>
    let s := (List.range 8).foldl (fun (s : State) i => if i = k then s.setLink i { state := 1, rate := 3 } else s.setLink i { state := 3, rate := 3 }) up
    (List.range 4).any (fun d => !((s.setLink k { s.link k with state := 3 }).reached 4).contains d)) = true := by decide +kernel

/-! ## Ports (R43 to R47, R62) -/

/-- A page of host memory at 0x50000, and a load and a store of it. -/
def hostPage : State :=
  up.setPage 0 5 { valid := true, owner := 0, addr := 0x4000000000000, kind := 2, w := true, rd := true }
def hostLoad : State := after (.ld (word4 (.g 1))) (hostPage.setU 0 1 0x50000)
def hostStore : State := after (.st (mf (.v 4) (.g 1) (.p 0) (size := 2))) ((hostPage.setU 0 1 0x50000).setV 0 4 0x55)
/-- A load whose two elements lie in two blocks of host memory, and a collective whose source is host memory. -/
def hostPair : State :=
  { hostPage with fills := [(9, { tid := 0, dst := [], flag := none, flagVal := 0, what := .load 4 [some 0x4000000000000, some 0x4000000000100] })] }
def hostColl : State :=
  { hostPage with colls := [(9, { core := 0, slot := 0, space := 0, launch := 0, wg := 0, handle := 0, gather := false, record := [] })],
                  pkg := hostPage.pkg }
/-- A request that is out: its tag, its issuer, and when it was sent. -/
def out (s : State) (r : PortReqOut) : State := s.setPort 0 [r]
def request : PortReqOut := { tag := 5, bytes := 32, id := 9, isStore := false, pa := 0x4000000000000, sent := 0 }
theorem witness_Ports : (let k := portOf 0x4000000000000
    (match hostLoad.fills with
     | [(id, f)] => k == 0 && decide (hostLoad.nextRequest 0 id = some (0x4000000000000, 32, false)) && decide (f.what = .load 4 [some 0x4000000000000]) &&
        (let s := after (.rinnorRequestSend 0 id) hostLoad
         match s.portReqs 0 with
         | [r] => !r.isStore && r.pa / 256 == 0x40000000000 && !s.earlierFill r.id 0 f.sectors && !s.poisoned 0x4000000000000 4 && inRegion 2 0x4000000000000 &&
             (s.ref 0).toNat < r.sent + 2700000 && !s.sentBefore 0 r && !f.gone && decide (s.stores.find r.id = none) &&
             runs (.rinnorResponse 0 r.tag) s (fun t => t.fills == [] && t.portReqs 0 == []) &&
             (let z := { s with refCount := [(0, 2700000)] }
              r.sent + 2700000 ≤ (z.ref 0).toNat && runs (.rinnorResponse 0 r.tag) z (fun t => t.fills.length == 1 && (t.portReqs 0).length == 1) &&
              runs (.rinnorTimeout 0 r.tag) z (fun t => t.fills == [] && t.portReqs 0 == []))
         | _ => false)
     | _ => false) &&
    (match hostStore.stores with
     | [(id, x)] =>
        let s := after (.rinnorRequestSend 0 id) hostStore
        (match s.portReqs 0 with
         | [r] => r.isStore && decide (x.atom = none) && (s.ref 0).toNat < r.sent + 2700000 && !s.sentBefore 0 r &&
             runs (.rinnorResponse 0 r.tag) s (fun t => t.stores == [] && t.rdByte 0x4000000000000 == 0x55) &&
             (let z := { s with refCount := [(0, 2700000)] }
              r.sent + 2700000 ≤ (z.ref 0).toNat && runs (.rinnorTimeout 0 r.tag) z (fun t => t.stores == []))
         | _ => false)
     | _ => false)) = true := by decide +kernel
theorem witness_Ports_blocks : ((let s := out hostPair request
     !s.sentBefore 0 request && (s.fills.find 9).any (fun f => !(Fill.blocks { f with got := insertAsc (request.pa / 256) f.got }).isEmpty) &&
     runs (.rinnorResponse 0 5) s (fun t => t.fills.length == 1 && t.portReqs 0 == [])) &&
    (let s := out hostColl request
     !s.sentBefore 0 request && decide (s.fills.find 9 = none) && runs (.rinnorResponse 0 5) s (fun t => (t.colls.find 9).any (fun c => c.got == [0x40000000000])) &&
     runs (.rinnorTimeout 0 5) { s with refCount := [(0, 2700000)] } (fun t => (t.colls.find 9).any (fun c => c.lost == [0x40000000000]))) &&
    (let s := out { hostPage with stores := [(9, { tid := 0, space := 0, va := 0x50000, data := [], order := 0, scope := 5, atom := some (0, false, 4, 3), code := 0, atRet := 0 })] } request
     !s.sentBefore 0 request && runs (.rinnorResponse 0 5) s (fun t => t.stores == [] && t.rdByte 0x4000000000000 == 3))) = true := by decide +kernel
/-- Client window 9 belongs to space 0, window 8 to space 9, and window 7 to none. -/
def windowed : State := { up with pkg.windows := [(8, (9, 1)), (9, (0, 3))] }
theorem witness_Ports_inbound : (let r (op : PortOp) (n : Nat) : PortReq := { op := op, va := 0x100, len := n, data := [7, 0, 0, 0, 0, 0, 0, 0] }
    let s := windowed
    let ok := fun (t : State) => t.pkg.portOut.map (fun x => (x.port, x.from', x.error)) == [(3, 9, false)]
    let bad := fun (t : State) => t.pkg.portOut.map (·.error) == [true]
    let gone := s.updPart 0 (fun p => { p with gens := [(0, { num := 0, state := 2, shared := [0] }), (1, { num := 1, state := 1 })] })
    decide (s.pkg.windows.find 9 = some (0, 3)) && s.pkg.stage != 0 && rinnorOk (r .load 32) && decide (s.inbound 0 (r .load 32) = .at' 0x100) && !s.poisoned 0x100 32 &&
    runs (.hostRequest 9 (r .load 32)) s ok && rinnorOk (r .store 256) && decide (s.inbound 0 (r .store 256) = .at' 0x100) &&
    runs (.hostRequest 9 (r .store 256)) s (fun t => ok t && t.rdByte 0x100 == 7) &&
    rinnorOk (r .add 8) && decide (s.inbound 0 (r .add 8) = .at' 0x100) && runs (.hostRequest 9 (r .add 8)) s (fun t => ok t && t.rdByte 0x100 == 7) &&
    runs (.hostRequest 9 (r .swap 8)) s (fun t => ok t && t.rdByte 0x100 == 7) && runs (.hostRequest 9 (r .cas 8)) s (fun t => ok t && t.rdByte 0x100 == 0) &&
    runs (.hostRequest 9 (r .cas 8)) (s.wrBytes 0x100 [7]) (fun t => ok t && t.rdByte 0x100 == 0) &&
    !rinnorOk (r .load 31) && runs (.hostRequest 9 (r .load 31)) s bad && decide (s.pkg.windows.find 7 = none) && runs (.hostRequest 7 (r .load 32)) s bad &&
    (match s.inbound 9 (r .load 32) with | .error _ => true | _ => false) && runs (.hostRequest 8 (r .load 32)) s bad &&
    decide (gone.inbound 0 (r .store 32) = .wait) && runs (.hostRequest 9 (r .store 32)) gone (fun t => t.pkg.portOut == [])) = true := by decide +kernel
/-- The enqueue half of the window of a launch queue takes a request of a host. -/
theorem witness_Ports_window : (let s := (withQueue windowed (ring 1 4)).setPage 0 16 { valid := true, owner := 0, addr := windowPa 0 0, kind := 4, w := true }
    let r : PortReq := { op := .store, va := 0x101000, len := 128, data := [7] }
    rinnorOk r && decide (s.inbound 0 r = .window 0) && (s.append 0 0 (fit r.len r.data)).isSome &&
    runs (.hostRequest 9 r) s (fun t => (t.queue 0 0).any (fun q => q.tail == 1) && t.rdByte 0x2000 == 7 && t.pkg.portOut.map (·.error) == [false])) = true := by decide +kernel
theorem witness_Ports_storage : (let r (op : PortOp) (n : Nat) : PortReq := { op := op, va := 0x100, len := n, data := [7] }
    let s := withQueue up { ring 6 2 with fn := 5 }
    decide (s.fnSpace 5 = some 0) && (s.link 16).state == 1 && !(s.link 16).l1 && decide (s.inbound 0 (r .store 512) = .at' 0x100) &&
    runs (.storageInboundRequest 5 (r .store 512)) s (fun t => t.rdByte 0x100 == 7 && t.pkg.portOut.map (fun x => (x.port, x.error)) == [(8, false)]) &&
    runs (.storageInboundRequest 5 (r .load 512)) s (fun t => t.pkg.portOut.map (fun x => x.bytes.length) == [512]) && decide (s.fnSpace 6 = none) &&
    runs (.storageInboundRequest 6 (r .store 512)) s (fun t => t.pkg.notices.map (fun n => (n.event, n.part, n.detail)) == [(1, 0xFF, 6)]) &&
    (let far : PortReq := { op := .load, va := 0x700000, len := 64, data := [] }
     decide (s.inbound 0 far = .error 0) && runs (.storageInboundRequest 5 far) s (fun t => t.pkg.notices.map (fun n => (n.event, n.part, n.detail)) == [(1, 0, 5)]))) = true := by
  decide +kernel

/-! ## Hypervisor calls (R75, R78, R86 to R92, R99 to R112, R173 to R177, R189) -/

def me : CallSrc := .session (.owner 0)
/-- The owner's session may ask anything of `up` and of what follows it with partition 0 neither sealed nor frozen. -/
theorem asked_by_session (s : State) (no : Nat) (args : List Nat) (h : s.busyPart 0 = false) : Spec.asked s me no args 0 := ⟨h, rfl⟩
theorem witness_asked : Spec.asked up me 0x8001 [1, 0, 0] 0 := asked_by_session up _ _ (by decide +kernel)
/-- A call record that a service has taken asks too. -/
def taken : State := up.updPart 0 (fun p => { p with
  calls := [(3, { tag := 3, gid := 0, tid := 0, callno := 0x8001, resBase := 4, nres := 2, args := [1, 0, 0], seq := 0, tok := none, posted := true, taken := true })] })
theorem witness_asked_call : Spec.asked taken (.call 0 3) 0x8001 [1, 0, 0] 0 := by
  refine ⟨by decide +kernel, rfl, _, rfl, rfl, rfl, rfl, ?_⟩
  intro i a h
  match i, h with
  | 0, h => simpa using h
  | 1, h => simpa using h
  | 2, h => simpa using h
  | n + 3, h => simp at h
theorem witness_FrameCalls : (!up.busyPart 0 && up.mayTake 0 49 true && !up.mayTake 0 101 false && (up.freeRun 50 4).isSome && (up.freeRun 1 18).isSome &&
    ends (.alloc me 49 4 1) up 0 && ends (.alloc me 101 0 0) up 3 && runs (.alloc (.call 0 3) 1 0 0) taken (fun t => decide (t.getU 0 4 = 0)) &&
    runs (.alloc me 1 18 0) up (fun t => match t.pkg.replies with | [r] => r.values.all (fun f => f.toNat % 2 ^ 18 == 0 && (t.frame f.toNat).owner == 0) | _ => false) &&
    (let s := up.updPart 0 (fun p => { p with burst := 2 ^ 24, guar := 2 ^ 24 })
     s.mayTake 0 3145729 false && decide (s.freeRun 3145729 0 = none) &&
     runs (.alloc me 3145729 0 0) s (fun t => decide ((t.part 0).frameWait = some (3145729, 0)) && t.pkg.replies == [])) &&
    (let s := { up with own := up.own.put 9 { owner := 0 } }
     !s.saveFrame 9 && !s.genNeeds 0 9 && !s.reserved 9 && ends (.freeCall me 9 1) s 0 && runs (.freeCall me 9 1) s (fun t => decide (t.frame 9 = {}))) &&
    up.scrHeld 0 + 7 ≤ (up.part 0).scrcap && (up.freeScr 255 7).isSome && ends (.salloc me 3 63 7) up 0 && (up.part 0).scrcap < up.scrHeld 0 + 128 && ends (.salloc me 0 0 128) up 3 &&
    (let s := after (.salloc me 0 0 7) up
     decide (s.grants.find (dramFrames + 1) = some 0) && s.queues == [] && !s.inFlight 0 0x00F000000001 7 && ends (.sfree me (flatBase + frameBytes) 7) s 0 &&
     runs (.sfree me (flatBase + frameBytes) 7) s (fun t => t.grants == [])) &&
    ends (.alloc (.session .operator) 1 0 0) up 1 && ends (.alloc me 1 0 0) (up.updPart 0 (fun p => { p with sealed := true })) 4) = true := by decide +kernel
/-- Two frames of partition 0 that nothing maps, and a lazy page at 0x60000. -/
def owned : State :=
  { up.setPage 0 6 { valid := false, state := 1, owner := 0, rd := true } with own := (up.own.put 8 { owner := 0 }).put 9 { owner := 0 } }
/-- A drained generation 2 that keeps page 6 in slot 1. -/
def drained : State := { owned.updPart 0 (fun p => { p with gens := [(0, { num := 0, state := 1 }), (2, { num := 1, state := 4, drained := [(6, 1)] })] }) with
  pages := owned.pages.put 6 { valid := false, state := 4, owner := 0, rd := true } }
theorem witness_PageCalls : (let w : W64 := 0x0800000000000006
    ends (.mapCall me 0x70000 8 0 w) owned 0 && decide (w &&& ~~~(0x180000000000007E : W64) = 0) && reachFits 1 0 && inRegion 0 (8 * 65536) && inRegion 0 (9 * 65536 - 1) &&
    (owned.frame 8).maps == 0 && !owned.asideFrame 0 8 && !owned.saveFrame 8 && !owned.inFlight 0 7 1 && !owned.pullFirst 0 7 1 &&
    runs (.mapCall me 0x70000 8 0 w) owned (fun t => (t.pages.find 7).any (fun e => e.valid && e.rd && e.w && !e.xe && e.reach == 1)) &&
    ends (.mapCall me 0x70000 (0x4000000000000 / 65536) 0 0x26) owned 0 && inRegion 2 0x4000000000000 && reachFits 0 2 &&
    (let s := after (.mapCall me 0x70000 8 0 w) owned
     !s.inFlight 0 7 1 && !s.pullFirst 0 7 1 && ends (.unmap me 0x70000 0x10000) s 0 && runs (.unmap me 0x70000 0x10000) s (fun t => decide (t.pages.find 7 = none)) &&
     !(s.leavesOver 0 7 1).any (fun e => e.2.kind == 3 || e.2.kind == 4) &&
     ends (.protect me 0x70000 0x10000 1 0 1) s 0 && runs (.protect me 0x70000 0x10000 1 0 1) s (fun t => (t.pages.find 7).any (fun e => e.rd && !e.w && e.xe))) &&
    !(owned.leavesOver 0 6 1).any (fun e => e.2.kind == 3 || e.2.kind == 4) && !owned.inFlight 0 6 1 && ends (.protect me 0x60000 0x10000 1 1 0) owned 0 &&
    ends (.lazy me 0x70000 0x20000 6) owned 0 && reachFits 0 0 && runs (.lazy me 0x70000 0x20000 6) owned (fun t => (t.pages.find 8).any (fun e => e.state == 1 && e.w)) &&
    ends (.query me 0 0x60000) owned 0 && ends (.query (.session (.owner 1)) 0 0x60000) owned 1 && ends (.query (.session .operator) 0 0x60000) owned 1) = true := by decide +kernel
theorem witness_PageCalls_generations : (let pulled := (owned.setPage 0 12 { valid := false, state := 3, owner := 0, rd := true }).updPart 0 (fun p => { p with
       gens := [(0, { num := 0, state := 2, shared := [12] }), (1, { num := 1, state := 1 })] })
    let away := { drained with pkg.tierUp := false }
    drained.pkg.tierUp && ends (.restore me 2 0x60000 0x10000) drained 0 && runs (.restore me 2 0x60000 0x10000) drained (fun t => (t.pages.find 6).any (fun e => e.state == 2 && e.addr == 1)) &&
    ends (.gfree me 2) drained 0 && ends (.gfree me 0) drained 2 && ends (.gmap me 2 0x60000 0x70000 0x20000) drained 0 && decide (drained.walk 0 7 = none) && decide (drained.walk 0 8 = none) &&
    runs (.gmap me 2 0x60000 0x70000 0x20000) drained (fun t => (t.pages.find 7).any (fun e => e.rd && !e.w && e.state == 2 && e.addr == 1) &&
      (t.pages.find 8).any (fun e => e.state == 2 && decide (t.slots.find e.addr = some { bytes := [], poison := [] }))) &&
    ends (.restore me 0 0x60000 0x10000) drained 5 && ends (.gmap me 0 0x60000 0x70000 0x10000) drained 5 && ends (.restore me 2 0x60000 0x10000) away 5 &&
    ends (.gmap me 2 0x60000 0x70000 0x10000) away 5 && hostLoad.inFlight 0 5 1 && runs (.unmap me 0x50000 0x10000) hostLoad (fun t => t.pkg.replies == []) &&
    pulled.pullFirst 0 12 1 && !pulled.busyPart 0 && runs (.unmap me 0xC0000 0x10000) pulled (fun t => t.pkg.replies == [])) = true := by decide +kernel
theorem witness_PageCalls_asked : ∀ s ∈ [owned, drained, hostLoad], s.busyPart 0 = false := by decide +kernel

/-- Fixed pages 0, 3 and 8, and a control word at 0 (R100): BASE 0x2000, WINDOW page 16, a ring of 8. -/
def fixedUp : State :=
  { ((up.setPage 0 0 { valid := true, fix := true, owner := 0, addr := 0, w := true, rd := true }).setPage 0 3
      { valid := true, fix := true, owner := 0, addr := 5 * frameBytes, w := true, rd := true }).setPage 0 8
      { valid := true, fix := true, owner := 0, addr := 9 * frameBytes, w := true, rd := true } with
    own := ((up.own.put 0 { owner := 0, fix := true, maps := 1 }).put 5 { owner := 0, fix := true, maps := 1 }).put 9 { owner := 0, fix := true, maps := 1 } }
def word (kind esize flags : Nat) : State := fixedUp.store 0 (toLE 8 0x2000 ++ toLE 8 0 ++ toLE 8 0x100000 ++ [3] ++ toLE 1 esize ++ toLE 1 kind ++ toLE 1 flags)
def bound (kind esize : Nat) : State := after (if kind = 0 ∨ kind = 5 then .qopen me 0 7 9 else .qbind me kind 0) (word kind esize 0)
/-- The queue that the word describes. -/
def ringAt (kind esize : Nat) : Queue := { ring kind esize with cw := 0 }
theorem witness_QueueCalls : ([(1, 4), (2, 2), (3, 1), (4, 1)].all (fun x => let s := word x.1 x.2 0
      decide (s.dropUnsound 0 x.1 0 = s) && decide (s.describe 0 0 [x.1] = some (ringAt x.1 x.2)) && decide (s.freeHandle 0 = some 0) && decide (s.kindQueue 0 x.1 = none) && !s.busyPart 0 &&
      ends (.qbind me x.1 0) s 0 && runs (.qbind me x.1 0) s (fun t => (t.queue 0 0).isSome && (t.pages.find 16).any (fun e => e.kind == 4)) &&
      (let t := after (.qbind me x.1 0) s
       (t.queueAt 0 0).isSome && !t.queueOpen 0 0 (ringAt x.1 x.2) && ends (.qclose me 0) t 0 && runs (.qclose me 0) t (fun u => decide (u.queue 0 0 = none)))) &&
    (let t := (bound 2 2).store (5 * frameBytes) (toLE 8 0x3000 ++ toLE 8 0 ++ toLE 8 0x110000 ++ [3, 2, 2, 0])
     let v := t.dropUnsound 0 2 0x30000
     (v.describe 0 0x30000 [2]).isSome && decide (v.freeHandle 0 = some 1) && (v.kindQueue 0 2).isSome && ends (.qbind me 2 0x30000) t 2) &&
    [(0, 1), (5, 8)].all (fun x => let s := word x.1 x.2 0
      ((s.dropUnsound 0 0 0).describe 0 0 [0, 5]).isSome && decide ((s.dropUnsound 0 0 0).freeHandle 0 = some 0) && ends (.qopen me 0 7 9) s 0 &&
      runs (.qopen me 0 7 9) s (fun t => (t.queue 0 0).any (fun q => q.srcDev == 7 && q.srcPart == 9))) &&
    decide (up.queueAt 0 0 = none) && ends (.qclose me 0) up 2 && ends (.nvfree me 0) up 2) = true := by
  decide +kernel
/-- A queue whose ring lies on a die that is lost is dropped before its kind is bound again. -/
theorem witness_QueueCalls_unsound : (let s := { bound 2 2 with pkg.gone := 1 }
    let z := (s.store (5 * frameBytes) (toLE 8 0x3000 ++ toLE 8 0 ++ toLE 8 0x110000 ++ [3, 2, 2, 0]))
    (s.queue 0 0).any (fun q => !s.queueSound 0 q) && ((z.dropUnsound 0 2 0x30000).kindQueue 0 2).isNone) = true := by decide +kernel
/-- A function with room, its queue pair, and the completion queue on a fixed page at 0x80000. -/
def nvme : State := { word 6 2 0 with pkg.functions := [{ id := 5, space := 0, queues := 64, bar := 0xD000000000000 }] }
theorem witness_QueueCalls_storage : (let f : PciFn := { id := 5, space := 0, queues := 64, bar := 0xD000000000000 }
    let s := after (.nvbind me 5 0 0x80000 3 0x90000) nvme
    !nvme.storageDown && decide (nvme.nvFunction 5 = some f) && (nvme.describe 0 0 [6]).any (fun q => q.logDepth == 3 && q.window != 9) && decide (nvme.freeHandle 0 = some 0) &&
    decide (nvme.nvFree f = some 1) && nvme.fixedRange 0 0x80000 128 && nvme.freePage 0 9 && !nvme.busyPart 0 && ends (.nvbind me 5 0 0x80000 3 0x90000) nvme 0 &&
    runs (.nvbind me 5 0 0x80000 3 0x90000) (nvme.setLink 16 { state := 1, l1 := true }) (fun t => !(t.link 16).l1) &&
    (match s.queueAt 0 0, s.freshQueue 0 0 with | some (h, q), some x => h == 0 && q.kind == 6 && x.count == 0 | _, _ => false) && !s.storageDown &&
    ends (.nvfree me 0) s 0 && runs (.nvfree me 0) s (fun t => decide (t.queue 0 0 = none)) &&
    (let z := match s.queue 0 0 with | some q => s.setQueue 0 0 { q with tail := 1 } | none => s
     let c := after (.nvfree me 0) z
     (z.freshQueue 0 0).any (fun x => x.count == 1) && (z.queue 0 0).any (fun q => (z.nvFunction q.fn).isSome && decide (q.closing = none)) &&
     (c.queue 0 0).any (fun q => decide (q.closing = some (me, 0))) &&
     (let e := { c with refCount := [(0, 270000000)] }
      270000000 ≤ (e.ref 0).toNat && !e.busyPart 0 && runs (.nvfreeAbort 0 0) e (fun t => decide (t.queue 0 0 = none))))) = true := by decide +kernel
theorem witness_QueueCalls_packets : (let p : Packet := { handle := 0, flits := [List.replicate 32 7] }
    let s := (bound 0 1).setQueue 0 0 { ringAt 0 1 with waiting := [(0, p)] }
    s.queueSound 0 { ringAt 0 1 with waiting := [(0, p)] } && (((s.setQueue 0 0 (ringAt 0 1)).append 0 0 p.flits.flatten).isSome && runs (.packetAppend 0 0) s (fun t => (t.queue 0 0).any (fun q => q.tail == 1 && q.waiting == []))) &&
    (let n := (bound 5 1).setQueue 0 0 { ringAt 5 1 with tail := 1 }
     let n := n.store 0x2000 ([0, 0, 0, 0, 1, 0, 0, 0] ++ List.replicate 24 3)
     n.netUp && n.served .network && (n.queue 0 0).any (fun q => q.kind == 5 && q.count == 1 && n.queueSound 0 q) && runs (.networkSend 0 0 true) n (fun t => t.pkg.netOut.length == 1) &&
     runs (.networkSend 0 0 false) n (fun t => (t.queue 0 0).any (·.drop))) &&
    (let r := (bound 0 1).setQueue 0 0 { ringAt 0 1 with netrx := true, srcDev := 7, srcPart := 9 }
     (r.queue 0 0).any (fun q => q.kind == 0 && q.netrx && Spec.room r 0 q) && runs (.networkReceive 0 7 9 0 ([0, 0, 0, 0, 1, 0, 0, 0] ++ List.replicate 24 3)) r (fun t => (t.queue 0 0).any (fun q => q.tail == 1)) &&
     runs (.networkReceive 0 7 8 0 ([0, 0, 0, 0, 1, 0, 0, 0] ++ List.replicate 24 3)) r (fun t => (t.queue 0 0).any (fun q => q.tail == 0)))) = true := by decide +kernel

/-! ## Paging, generations and partitions (R57, R63 to R66, R76, R87 to R98, R181 to R190, R296) -/

/-- Lazy page 6, page 7 in slot 1 of the lower tier, page 10 to be pulled, and page 11 on frame 9. -/
def pagesOf : State :=
  let s := ((up.setPage 0 6 { valid := false, state := 1, owner := 0, rd := true }).setPage 0 7 { valid := false, state := 2, owner := 0, addr := 1, rd := true }).setPage 0 10
    { valid := false, state := 3, owner := 0, rd := true }
  { s.setPage 0 11 { valid := true, owner := 0, addr := 9 * frameBytes, rd := true, w := true } with
    slots := [(1, { bytes := [(0, 7)], poison := [] })], nextSlot := 2, own := up.own.put 9 { owner := 0, maps := 1 } }
/-- Partition 0 has as many frames as it may have, and one more is asked for. -/
def full (n : Nat) : State := { pagesOf.updPart 0 (fun p => { p with burst := pagesOf.resident 0, guar := 0, frameWait := some (n, 0) }) with clock := 9 }
theorem witness_Paging : ([6, 7, 10].all (fun q => (pagesOf.walk 0 q).any (fun x => x.1 == q && !x.2.valid && [1, 2, 3].contains x.2.state) &&
      runs (.pageResolve 0 q .refused) pagesOf (fun t => (t.pages.find q).any (fun e => e.state == 0)) && runs (.pageResolve 0 q .lost) pagesOf (fun t => (t.pages.find q).any (fun e => e.state == 4))) &&
    pagesOf.mayTake 0 1 false && (pagesOf.freeRun 1 0).isSome && (Image.bytes { bytes := [(0, 7)], poison := [] }).sorted &&
    runs (.pageResolve 0 6 .mapped) pagesOf (fun t => (t.pages.find 6).any (fun e => e.valid && t.rdByte e.addr == 0)) &&
    runs (.pageResolve 0 7 .mapped) pagesOf (fun t => (t.pages.find 7).any (fun e => e.valid && t.rdByte e.addr == 7)) &&
    (let s := full 1
     decide ((s.part 0).frameWait = some (1, 0)) && !s.mayTake 0 1 false && s.tierServed && !s.reserved 9 &&
     (match State.hand (3 * dramFrames + 1) s 0 0 false with | (some f, z) => f == 9 && (z.frame 9).owner == 0 && !z.busy 9 && !(s.frame 9).fix | _ => false) &&
     runs (.victimEvict 0) s (fun t => decide (t.frame 9 = {}) && (t.pages.find 11).any (fun e => e.state == 2 && e.addr == 2)) &&
     -- a frame whose copy in the lower tier is valid goes without another one
     (let c := { s with own := s.own.upd 9 (fun o => { o with dirty := false }), seals := [(9, 0)] }
      decide (c.sealOf 9 = some 0) && runs (.victimEvict 0) c (fun t => decide (t.frame 9 = {}) && t.nextSlot == c.nextSlot &&
        (t.pages.find 11).any (fun e => e.state == 2 && e.addr == 0))) &&
     runs (.victimEvict 0) pagesOf (fun t => decide (t.frame 9 = pagesOf.frame 9)) && s.tierServed && runs (.pageResolve 0 6 .mapped) s (fun t => (t.pages.find 6).any (fun e => e.state == 1)) &&
     decide (s.pageFrame 0 11 = some 9)) &&
    (let s := (pagesOf.wrBytes (9 * frameBytes) [5]).updPart 0 (fun p => { p with epoch := 1 })
     s.stale 9 && runs (.epochScrub 9) s (fun t => !t.stale 9 && t.rdByte (9 * frameBytes) == 0)) &&
    runs (.sectorScrub 0) pagesOf (fun t => t.poison.contains 0) &&
    (let g : Tab Gen := [(0, { num := 0, state := 2, shared := [11] }), (1, { num := 1, state := 1 })]
     let s := pagesOf.updPart 0 (fun p => { p with gens := g })
     let w := (full 1).updPart 0 (fun p => { p with gens := g })
     decide (s.pageFrame 0 11 = some 9) && s.frameShared 0 9 && (g.find 0).any (fun x => s.genShares 0 9 x == [11]) && s.mayTake 0 1 false &&
     runs (.copyAside 0 11) s (fun t => ((t.part 0).gens.find 0).any (fun g => g.shared == [] && g.asides.length == 1)) &&
     w.frameShared 0 9 && runs (.copyAside 0 11) w (fun t => ((t.part 0).gens.find 0).any (fun g => g.shared == [11])))) = true := by decide +kernel
/-- With every frame free and a partition that may have none, the hand finds no victim in any number of steps. -/
theorem hand_finds_none (n : Nat) : ∀ (s : State) (k : Nat), s.own = [] → s.pkg.reserve = none → s.frameCap 0 ≤ s.resident 0 → (State.hand n s 0 k false).1 = none := by
  induction n with
  | zero => intros; rfl
  | succ n ih =>
    intro s k h1 h2 h3
    let u : State := { s with clock := (s.clock + 1) % dramFrames }
    have free : (u.frame s.clock).owner = 127 := by simp [u, State.frame, State.reserved, h1, h2, Tab.getD, Tab.find]
    let j := if s.clock = 0 then k + 1 else k
    have e : State.hand (n + 1) s 0 k false = if j = 3 then (none, u) else State.hand n u 0 j false := by
      show (if _ then _ else _) = _
      by_cases h4 : j = 3
      · rw [if_pos h4, if_pos h4]
      · rw [if_neg h4, if_neg h4, if_pos free, if_pos (by simp [State.frameCap, State.resident] at h3 ⊢; exact Or.inl h3)]
    rw [e]
    split
    · rfl
    · exact ih u _ h1 h2 h3
theorem witness_Paging_hand : (let s : State := { (full 1).updPart 0 (fun p => { p with burst := 0 }) with own := [] }
    s.frameCap 0 ≤ s.resident 0 ∧ s.mayTake 0 1 false = false ∧ (s.part 0).frameWait = some (1, 0)) ∧
    (State.hand (3 * dramFrames + 1) { (full 1).updPart 0 (fun p => { p with burst := 0 }) with own := [] } 0 0 false).1 = none :=
  ⟨by decide +kernel, hand_finds_none _ _ _ rfl (by decide +kernel) (by decide +kernel)⟩
theorem witness_Paging_drains : (let g (st : Nat) : Tab Gen := [(0, { num := 0, state := st, asides := [(11, 9)] }), (1, { num := 1, state := 2 }), (2, { num := 2, state := 1 })]
    let s := fun (st : Nat) => pagesOf.updPart 0 (fun p => { p with gens := g st })
    let is := fun (t : State) (k n : Nat) => ((t.part 0).gens.find k).any (fun g => g.state == n)
    (s 2).served .drain && (s 3).tierServed && (((s 3).part 0).gens.find 0).any (fun g => !(s 3).drainPulls 0 g) && is (s 2) 0 2 && runs (.drainStart 0 0) (s 2) (fun t => is t 0 3) && runs (.drainStart 0 1) (s 3) (fun t => is t 1 2) && runs (.drainStart 0 1) (s 2) (fun t => is t 1 3) &&
    runs (.drainDone 0 0) (s 3) (fun t => is t 0 4 && ((t.part 0).gens.find 0).any (fun g => g.asides == [] && (g.drained.find 11).isSome)) &&
    (let z := pagesOf.updPart 0 (fun p => { p with gens := [(0, { num := 0, state := 3, shared := [10] })] })
     ((z.part 0).gens.find 0).any (fun g => z.drainPulls 0 g) && runs (.drainDone 0 0) z (fun t => is t 0 3)) &&
    runs (.drainFail 0 0) (s 3) (fun t => is t 0 6 && t.pkg.notices.map (·.event) == [3]) && runs (.drainRetry 0 0 true) (s 6) (fun t => is t 0 3) &&
    runs (.drainRetry 0 0 false) (s 6) (fun t => is t 0 6 && t.pkg.notices.map (·.event) == [3]) && up.pkg.notices == []) = true := by decide +kernel
theorem witness_CreationAndReset : (!(up.part 63).live && runs (.partitionCreate 63) up (fun t => (t.part 63).live && (t.part 63).key == up.pkg.draws && (t.part 63).bond == up.pkg.draws + 1 && (t.part 63).gens.length == 1) &&
    (up.part 0).live && !(up.part 0).sealed && (up.part 0).migrating == 0 && (up.part 0).resetters == 0 && !(up.sealReset 0).epochConflict 0 &&
    ends (.resetPart .operator 0) up 0 && runs (.resetPart .operator 0) up (fun t => (t.part 0).resets == 1 && (t.part 0).epoch == 1 && t.groups == []) &&
    runs (.resetPart .operator 0) (up.updPart 0 (fun p => { p with sealed := true })) (fun t => (t.part 0).resetters == 1) && ends (.resetPart (.owner 0) 0) up 1) = true := by
  decide +kernel

/-- Partition 0 at rest: its group halted, its policy "any chain". -/
def atRest : State := (pagesOf.updGroup 0 (fun g => { g with halted := true })).updPart 0 (fun p => { p with migpol := 2 })
theorem witness_Migration : (let started := after (.migrate .operator 0 true false) atRest
    !(atRest.part 0).sealed && decide (atRest.kindQueue 0 6 = none) && atRest.netUp && (started.part 0).migrating == 1 &&
    (let s := atRest.updPart 0 (fun p => { p with migpol := 1 })
     runs (.migrate .operator 0 true true) s (fun t => (t.part 0).migrating == 1) && ends (.migrate .operator 0 true false) s 1) &&
    ends (.migrate .operator 0 false true) atRest 1 && ends (.migrate .operator 0 true true) up 1 &&
    (let f := started.updPart 0 (fun p => { p with migrating := 4 })
     f.freezeReady 0 && f.pullServed && runs (.migrationFreeze 0) f (fun t => (t.part 0).migrating == 2 && t.pkg.migOut.length == 1) && !(up.updPart 0 (fun p => { p with migrating := 4 })).freezeReady 0) &&
    runs (.migrationFailureReport 0) (atRest.updPart 0 (fun p => { p with migrating := 2 })) (fun t => !(t.part 0).live && decide (t.part 0 = {}) && t.groups == [] && (t.pages.find 0).isNone)) = true := by
  decide +kernel
/-- An image of partition 7: one halted group on core 9, and a page to be pulled. -/
def image : MigImage :=
  { p := 7, part := { live := true, burst := 9, guar := 9 }, groups := [(9 * 512, { up.group 0 with space := 7, launch := 1, halted := true, scrBase := BitVec.ofNat 56 (flatBase + 9 * 2 ^ 23) })], threads := [(9 * 512 * 64, { pc := 0 })],
    launches := [(1, { fetchLaunch with space := 7 })], vreg := [], preg := [], ureg := [], treg := [], pinreg := [], accs := [], planesA := [], planesS := [], opbuf := [],
    pages := [(pageKey 7 3, { valid := false, state := 3, owner := 7, rd := true })], data := [], slots := [], queues := [], colls := [], stores := [], pinDir := [], fullUnits := [], more := [],
    scratch := [], grants := [], waits := [], bars := [], ctrs := [], lcb := [], stamp := 2 }
def arriving : State := { up with pkg := { up.pkg with migIn := [image] } }
theorem witness_Migration_arrival : (runs (.migrationArrival 0 false) arriving (fun t => t.pkg.migIn.length == 0 && !(t.part 7).live) &&
    (let j := image.rebase arriving.stamp arriving.nextSlot (fun d => (arriving.ref d).toNat)
     let s1 := ({ arriving with pkg := { arriving.pkg with migIn := [] } } : State).install j
     !(arriving.part 7).live && 3 ≤ arriving.pkg.stage && !image.missing && image.movesWhole && arriving.sumsFit image && image.scratch == [] && image.groups.all (fun e => (arriving.groups.find e.1).isNone && arriving.clusterUp (coreOf e.1 / 8) && s1.coreFits (coreOf e.1)) &&
     ((s1.placeFixed j).bind (fun x => x.placeSaves j)).isSome)) = true := by decide +kernel
/-- The same image on another core of the destination: the group, its thread and its allocation are there. -/
theorem witness_Migration_moved : (let raw := { image with cores := [(9, 17)] }
    let j := raw.moved.rebase arriving.stamp arriving.nextSlot (fun d => (arriving.ref d).toNat)
    let s := { up with pkg.migIn := [raw] }
    raw.movesWhole && !raw.moved.missing && s.sumsFit raw.moved && raw.moved.groups.map (·.1) == [17 * 512] && arriving.clusterUp 2 &&
    ((({ up with pkg.migIn := [] } : State).install j).placeFixed j |>.bind (fun x => x.placeSaves j)).isSome &&
    runs (.migrationArrival 0 true) s (fun t => (t.groups.find (17 * 512)).any (fun g => g.scrBase.toNat == flatBase + 17 * 2 ^ 23) &&
      (t.threads.find (17 * 512 * 64)).isSome && (t.groups.find (9 * 512)).isNone) &&
    !({ raw with groups := raw.groups ++ [(17 * 512, up.group 0)] } : MigImage).movesWhole) = true := by decide +kernel
theorem witness_Migration_pulls : ((pagesOf.parts.find 0).isSome && pagesOf.pullPages 0 == [10] && (pagesOf.pages.find 10).isSome && decide (pagesOf.pageWaits.find 10 = none) &&
    runs (.postCopyPull 0 10 [5, 6] true) pagesOf (fun t => (t.pages.find 10).any (fun e => e.valid && t.rdByte (e.addr + 1) == 6)) &&
    runs (.postCopyPull 0 10 [] false) pagesOf (fun t => (t.part 0).pulls.getD 10 0 == 1) &&
    (let s := pagesOf.updPart 0 (fun p => { p with pulls := [(10, 2)] })
     runs (.postCopyPull 0 10 [] false) s (fun t => (t.pages.find 10).any (fun e => e.state == 4))) &&
    decide (pagesOf.nextPull 0 = some 10) && pagesOf.netUp && pagesOf.pullServed && decide ((pagesOf.part 0).frameWait = none) && pagesOf.mayTake 0 1 false && decide (pagesOf.walk 0 10 = (pagesOf.pages.find 10).map (fun e => (10, e))) &&
    (pagesOf.pages.find 10).any (fun e => e.size == 0) && runs (.postCopyPull 0 11 [] true) pagesOf (fun t => (t.pages.find 10).any (fun e => e.state == 3)) &&
    decide ((full 1).nextPull 0 = some 10) && !(full 1).mayTake 0 1 false && runs (.postCopyPull 0 10 [] true) (full 1) (fun t => (t.pages.find 10).any (fun e => e.state == 3)) &&
    runs (.postCopyPullFail { p := 0, loss := true }) pagesOf (fun t => t.pkg.notices.map (·.event) == [2] && (t.pages.find 10).any (fun e => e.state == 4)) &&
    (let late := { pagesOf with refCount := [(0, 27000000)] }
     (late.part 0).pullAsked + 27000000 ≤ (late.ref 0).toNat && runs (.postCopyPullFail { p := 0, loss := false }) late (fun t => t.pkg.notices.map (·.event) == [2])) &&
    (let cut := (List.range 8).foldl (fun (s : State) i => s.setLink (8 + i) { state := 3 }) pagesOf
     !cut.netUp && runs (.postCopyPull 0 10 [] true) cut (fun t => (t.pages.find 10).any (fun e => e.state == 3)) &&
     runs (.postCopyPullFail { p := 0, loss := false }) cut (fun t => t.pkg.notices.map (·.event) == [2])) &&
    (pagesOf.ref 0).toNat < (pagesOf.part 0).pullAsked + 27000000 && runs (.postCopyPullFail { p := 0, loss := false }) pagesOf (fun t => t.pkg.notices == [])) = true := by decide +kernel

/-! ## Launches and scheduling -/

/-- A launch record of one group of eight threads (R114). -/
def record (replay : Nat) : List Byte :=
  toLE 16 0 ++ [3, 8, 0, 0] ++ toLE 2 1 ++ toLE 32 0 ++ [0xFF, 0xFF, 1, 1, 0, 16] ++ toLE 1 replay ++ [0, 1, 0] ++ toLE 64 0
/-- A launch queue that holds it, and a fault queue. -/
def launching (b : List Byte) : State :=
  let s := up.store 0x2000 b
  { s with queues := [(0, { ring 1 4 with tail := 1 }), (1, { ring 3 1 with cw := 0x440, base := 0x3000, window := 17 })] }
theorem witness_Launching : (let s := launching (record 0)
    (s.queue 0 0).any (fun q => q.kind == 1 && q.count == 1 && (q.parents.find q.head).isNone && s.queueSound 0 q) && s.flueDie 0 == 0 && (s.parts.find 0).isSome && !(s.part 0).sealed && !(s.part 0).frozen &&
    (match s.queue 0 0 with
     | some q => let b := s.headEntry 0 q
       s.recordReason 0 b (recordOf b) == 0 && (match s.windowsFind 0 (recordOf b) with | .ok l => l == [] | _ => false) && (recordOf b).winWords == [] && s.mayPop 0 q
     | none => false) &&
    runs (.launchAccept 0 0) s (fun t => (t.launches.find s.stamp).any (fun l => l.phase == .eligible) && (t.queue 0 0).any (fun q => q.head == 1)) &&
    (let z := launching ((record 0).set 62 (5 : Byte))
     runs (.launchAccept 0 0) z (fun t => (t.launches.find z.stamp).isNone && (t.part 0).launchSeq == 1))) = true := by decide +kernel
def accepted : State := after (.launchAccept 0 0) (launching (record 0))
theorem witness_Launching_dispatch : (let id := (launching (record 0)).stamp
    let moving : State := { accepted with flues := [(0, { ring := 64, visit := false }), (1, { ring := 0, visit := true, deficit := [(0, 5)] })] }
    accepted.dieUp 0 && (Spec.top accepted 0).map (·.1) == [id] && (accepted.flues.getD 0 {}).ring == 0 && !(accepted.flues.getD 0 {}).visit && (accepted.flueWork 0).contains (accepted.flueClass 0, 0) &&
    decide (accepted.flueVisit 0 = some (0, 4096)) && Spec.returns accepted 0 0 == [] && (accepted.launch id).record.instGroupCount * (accepted.launch id).record.gwidth ≤ 4096 &&
    (((accepted.setVisit 0 0 4096).begin id).placeOrClaim id 0 0 1).isSome && decide (moving.flueVisit 0 = some (0, 4096)) &&
    runs (.dispatch 0 1 0) accepted (fun t => (t.launch id).next == 1 && (t.launch id).phase == .running && (t.groups.find 512).isSome && (t.flues.getD 0 {}).ring == 1)) = true := by
  decide +kernel
/-- A visit under way, and a halted instance that comes first in it, or that its deficit does not cover. -/
theorem witness_Launching_returns : (let s (d : Nat) := { up.updGroup 0 (fun g => { g with halted := true }) with flues := [(0, { ring := 0, visit := true, deficit := [(0, d)] })] }
    [1, 0].all (fun d => (s d).dieUp 0 && ((s d).flueWork 0).contains ((s d).flueClass 0, 0) && decide ((s d).flueVisit 0 = some (0, d)) && Spec.returns (s d) 0 0 == [(0, 0)]) &&
    (s 1).instSize 0 0 == 1 && runs (.dispatch 0 0 0) (s 1) (fun t => decide (t.flues.getD 0 {} = (s 1).flues.getD 0 {})) &&
    runs (.dispatch 0 0 0) (s 0) (fun t => (t.flues.getD 0 {}).ring == 1 && !(t.flues.getD 0 {}).visit)) = true := by decide +kernel
theorem witness_Launching_ends : (let l : Launch := { fetchLaunch with phase := .running, unfit := some 0 }
    let ended (f : Launch → Launch) : State := { up with launches := [(1, f l), (2, { l with phase := .held 1 })], groups := [], threads := [], refCount := [(0, 2 ^ 20)] }
    let s := ended id
    (s.launches.find 1).isSome && 0 + 2 ^ 20 ≤ (s.ref 0).toNat && runs (.launchBlocking 1) s (fun t => (t.launch 1).blocking) && s.launchOver 1 l &&
    runs (.launchEnd 1) s (fun t => (t.launches.find 1).isNone && (t.launch 2).phase == .eligible) &&
    (let e := ended (fun l => { l with phase := .ended })
     (e.postCompletion { l with phase := .ended } []).isSome && runs (.launchEnd 1) e (fun t => (t.launches.find 1).isNone)) &&
    (let r := ended (fun l => { l with replayable := true, sigRun := 1, sigs := [(0, 5)] })
     r.launches.sorted && runs (.signatureCheck 1) r (fun t => (t.launch 1).sigRun == 2 && (t.launch 1).next == 0)) &&
    runs (.signatureCheck 1) (ended (fun l => { l with replayable := true, sigRun := 2, sigs := [(0, 5)], sigsFirst := [(0, 5)] })) (fun t => (t.launch 1).sigRun == 0)) = true := by
  decide +kernel
/-- The group of `up` with its save area, from frame 20 on. -/
def saved : State :=
  { up.updGroup 0 (fun g => { g with saveFrame := 20, saveCount := up.saveFrames 0 }) with
    own := (List.range (up.saveFrames 0)).foldl (fun t k => t.put (20 + k) { owner := 0, fix := true }) up.own }
/-- A launch of partition 1 that needs all the accumulators of core 0, which the group of partition 0 holds. -/
def crowded : State :=
  { saved.setPart 1 { live := true, burst := 100, guar := 50, scrcap := 8, gens := [(0, { num := 0, state := 1 })] } with
    queues := [(65536, { ring 3 1 with space := 1 })], slices := [(0, { start := 0 })],
    launches := up.launches.put 2 { fetchLaunch with space := 1, phase := .eligible, next := 0, record := { fetchLaunch.record with vgran := 1, ggran := 1, tregs := 0, opbuf := 0, wins := [] } } }
theorem witness_HaltsAndReturns : (let s := { up with slices := [(0, { start := 0 })], refCount := [(0, 2700000)] }
    (s.slices.find 0).isSome && 0 + (s.part 0).slice * 2700 ≤ (s.ref 0).toNat && runs (.sliceEnd 0 0) s (fun t => (t.slices.find 0).any (·.ended)) &&
    runs (.sliceEnd 0 0) { s with refCount := [(0, 2699999)] } (fun t => (t.slices.find 0).any (fun x => !x.ended)) && ends (.preempt .operator 0 0) s 0 && ends (.preempt (.owner 0) 64 255) s 1 &&
    (let c := { crowded with slices := [(0, { start := 0, ended := true })] }
     c.groups.sorted && c.workWaits 0 0 && runs (.partitionHalt 0 0) c (fun t => (t.group 0).haltDue)) &&
    (let h := up.updGroup 0 (fun g => { g with halted := true, budget := 0 })
     decide (h.nextHalted 0 0 = some (0, 0)) && ((h.backClaims 0 [0]).bind (fun us => h.claimAll us)).isSome && h.mayReturn 0 0 && h.instGroups 0 0 == [0] &&
     decide (h.flueVisit 0 = some (0, 4096)) && h.instSize 0 0 ≤ 4096 && h.effClass (h.launch 0) == h.flueClass 0 && (h.group 0).spilt == 0 &&
     runs (.groupResume 0 0 true) h (fun t => !(t.group 0).halted && (t.group 0).budget == 65536)) &&
    (let n := (up.updGroup 0 (fun g => { g with hold := some 3, budget := 0 })).updThread 0 (fun h => { h with inHandler := true })
     n.threads.sorted && runs (.nopreExpiry 0) n (fun t => decide ((t.group 0).hold = none) && (t.thread 0).reports.map (·.cause) == [.nopreExpired])) &&
    decide ((up.group 0).hold = none) && up.clusterUp 31 && runs (.infieldTest 31) up (fun t => t.pkg.tests == [31] && t.pkg.testing == [31]) && (let v := up.haltInst 0 0
     (v.claimAll (v.unitsOf (v.clusterGroups 0))).isSome && runs (.infieldTest 0) up (fun t => (t.group 0).halted && t.pkg.tests == [0] && t.pkg.testing == [0]))) = true := by
  decide +kernel
theorem witness_UncorrectableErrors : (let s (r : Bool) (n : Nat) := up.updLaunch 0 (fun l => { l with replayable := r, consumptions := n })
    (up.launch 0).phase == .running && up.groupsOf 0 == [0] && up.launches.sorted &&
    runs (.uncorrectableError 0) (s true 6) (fun t => (t.launch 0).phase == .eligible && (t.launch 0).attempts == 1 && t.groups == []) &&
    runs (.uncorrectableError 0) (s true 7) (fun t => decide ((t.launch 0).firstKill = some 0x20)) && runs (.uncorrectableError 0) (s false 0) (fun t => decide ((t.launch 0).firstKill = some 0x20))) =
    true := by decide +kernel
theorem witness_Wakes : (let r : TrapInfo := { cause := .storeFault, i0 := 0 }
    let s := pad.updThread 0 (fun h => { h with reports := [r] })
    let w := fun (st : TState) (n : W64) => (pad.updThread 0 (fun h => { h with st := st })).updGroup 0 (fun g => { g with cycle := n })
    runs (.reportDelivery 0) s (fun t => (t.thread 0).inHandler && (t.thread 0).reports == [] && decide ((t.thread 0).trapCause.getLsbD 8 = true)) && !(s.group 0).halted &&
    runs (.reportDelivery 0) (s.updThread 0 (fun h => { h with inHandler := true })) (fun t => (t.thread 0).reports.length == 1) &&
    runs (.sleepWake 0) (w (.waiting (.sleep 5)) 5) (fun t => decide ((t.thread 0).st = .ready) && decide ((t.thread 0).pc = 1)) &&
    runs (.sleepWake 0) (w (.waiting (.sleep 5)) 4) (fun t => decide ((t.thread 0).st ≠ .ready)) &&
    s.reportKnown 0 &&
    (let y := fun (n : W64) => ({ w (.waiting (.yield 5)) 0 with coreCycle := [(0, n)] } : State)
     decide (((y 5).cycles 0).toNat = 5) &&
     runs (.yieldReady 0) (y 5) (fun t => decide ((t.thread 0).st = .ready) && decide ((t.thread 0).pc = 0)) &&
     runs (.yieldReady 0) (y 4) (fun t => decide ((t.thread 0).st ≠ .ready)))) = true := by decide +kernel

/-! ## What the outside reads -/

/-- A challenge has been given out on client window 1. -/
def challenged : State := { up with pkg.challenges := [(1, List.replicate 64 7)] }
theorem witness_SessionsAndReports : (up.pkg.stage != 0 && (challenged.pkg.challenges.find 1).isSome && decide (challenged.pkg.sessions.find 1 = none) && (challenged.part 0).live && !(challenged.part 0).sealed &&
    runs (.sessionOpen .operator 1 true [] []) challenged (fun t => (t.pkg.sessions.find 1).any (fun x => x.key == []) && t.pkg.challenges == []) &&
    runs (.sessionOpen (.owner 0) 1 true [] []) challenged (fun t => t.pkg.reportSeq == 1 && (t.pkg.sessions.find 1).isSome) &&
    runs (.sessionOpen (.owner 0) 1 false [] []) challenged (fun t => t.pkg.sessions == [] && t.pkg.challenges == []) &&
    decide (up.pkg.challenges.find 1 = none) && runs (.sessionOpen (.owner 0) 1 true [] []) up (fun t => t.pkg.sessions == []) &&
    (let s := { up with pkg.sessions := [(1, { who := .owner 0 })] }
     runs (.sessionMessage 1 true) s (fun t => (t.pkg.sessions.find 1).any (fun x => x.received == 1)) && runs (.sessionMessage 1 false) s (fun t => t.pkg.sessions == [])) &&
    (let n := List.replicate 64 (3 : Byte)
     n.length == 64 && ends (.attestationRequest (.owner 0) 1 n) up 1 && ends (.attestationRequest .operator 64 n) up 1 && ends (.attestationRequest .auditor 0 n) (up.updPart 0 (fun p => { p with sealed := true })) 4 &&
     runs (.attestationRequest .auditor 64 n) up (fun t => t.pkg.reportSeq == 1) && runs (.attestationRequest (.owner 0) 255 n) up (fun t => t.pkg.reportSeq == 1)) &&
    ends (.notices .operator 64) up 0 && ends (.notices .auditor 1) up 1 && ends (.notices .operator 0) up 2 && ends (.notices .operator 65) up 2) = true := by decide +kernel
theorem witness_Accounts : (runs (.energyInterval 3 0 1500000) up (fun t => (t.account 0xFF).fields.getD 1 0 == 1 && (t.account 0xFF).fields.getD 0 0 == 1 && (t.account 0xFF).carry.getD 1 0 == 500000) &&
    -- two thirds of the issue slots of cluster 3 went to partition 0, one third to a discarded attempt of it
    (let s := { up with work := ([(workKey 0 3 0 1, 1), (workKey 0 3 0 2, 2)]) }
     (s.part 0).live && s.workOf 0 3 == [((0, 1), 1), ((0, 2), 2)] &&
     runs (.energyInterval 3 0 3000001) s (fun t => (t.account 0).fields.getD 1 0 == 3 && (t.account 0).fields.getD 0 0 == 3 && (t.account 0).fields.getD 7 0 == 1 &&
       (t.account 0xFF).carry.getD 0 0 == 1 && t.work == [])) &&
    ends (.eread .operator 0) up 1 && runs (.eread .auditor 0xFF) up (fun t => t.pkg.readingSeq == 1) && runs (.eread .auditor 64) up (fun t => t.pkg.readings.length == 1) &&
    ends (.eread .auditor 0) (up.updPart 0 (fun p => { p with migrating := 2 })) 4 &&
    ends (.sootrd (.owner 0) 4 31) up 1 && ends (.sootrd .operator 0 4095) up 0 && ends (.sootrd .auditor 2 1087) up 0 && ends (.sootrd .operator 5 0) up 2 && ends (.sootrd .operator 1 36) up 2 &&
    runs .sootUpdate up (fun t => t.pkg.sootMark == 0) &&
    (let s := (withQueue up { ring 0 2 with cw := 0x400 }).updPart 0 (fun p => { p with trctl := 0x8000000000000000, traceDropped := 5 })
     (s.queue 0 0).any (fun q => q.kind == 0 && q.esize == 2 && Spec.room s 0 q) && runs (.traceLoss 0) s (fun t => (t.part 0).traceDropped == 0 && (t.queue 0 0).any (fun q => q.tail == 1)))) = true := by
  decide +kernel

end Sys2Proof.Tests
end

section
/-! SUPPORT. Memory as a program reads it, byte by byte (R57): what makes a frame ready for a write changes no byte that a
program reads, and the bytes then land in a frame that is read as it stands. -/
namespace Sys2Proof.Machine

/-! ## The frame of an address (R89, R172) -/

/-- Addresses of the same 64 KiB have the same frame: DRAM and scratchpad both begin at multiples of 64 KiB. -/
theorem frameOf_congr {a b : Nat} (h : a / frameBytes = b / frameBytes) : frameOf a = frameOf b := by
  have hoff : (a - scratchBase) / frameBytes = (b - scratchBase) / frameBytes := by
    simp only [frameBytes, scratchBase] at *; omega
  have hscr : (scratchBase ≤ a ∧ a < scratchBase + scratchSize) ↔ (scratchBase ≤ b ∧ b < scratchBase + scratchSize) := by
    simp only [frameBytes, scratchBase, scratchSize] at *; omega
  simp only [frameOf, h, hoff, hscr]

/-- The frame of an address begins at the multiple of 64 KiB at or below it. -/
theorem frameAddr_of_frameOf {a f : Nat} (h : frameOf a = some f) : frameAddr f = a / frameBytes * frameBytes := by
  unfold frameOf at h
  unfold frameAddr
  split at h
  · next hdram => cases h; rw [if_pos hdram]
  · split at h
    · next hscr =>
      cases h
      rw [if_neg (Nat.not_lt.2 (Nat.le_add_right ..))]
      simp only [frameBytes, scratchBase] at *
      omega
    · cases h

/-- The addresses of one frame are those of its 64 KiB. -/
theorem frameOf_eq_some_iff {pa f : Nat} (h : frameOf pa = some f) (a : Nat) :
    frameOf a = some f ↔ frameAddr f ≤ a ∧ a < frameAddr f + frameBytes := by
  constructor
  · intro ha
    rw [frameAddr_of_frameOf ha]
    simp only [frameBytes]
    omega
  · intro ha
    rw [frameAddr_of_frameOf h] at ha
    refine (frameOf_congr ?_).trans h
    simp only [frameBytes] at *
    omega

/-! ## Ownership-table entries and stale frames (R57, R89) -/

/-- An entry of an owner (127 is none) is found where it was set, and every other entry is as it was. -/
theorem State.frame_setFrame (s : State) (f g : Nat) (o : Own) (h : o.owner ≤ 64) :
    (s.setFrame f o).frame g = if g = f then o else s.frame g := by
  have hz : o ≠ {} := by rintro rfl; exact absurd h (by decide)
  have hput : (s.setFrame f o).own = s.own.put f o := if_neg hz
  have hres : (s.setFrame f o).reserved = s.reserved := rfl
  unfold State.frame
  rw [hput, hres]
  by_cases e : g = f
  · rw [if_pos e, e, Tab.getD_put_self]
  · rw [if_neg e, Tab.getD_put_ne _ _ _ _ _ e]

theorem State.stale_setFrame (s : State) (f g : Nat) (o : Own) (h : o.owner ≤ 64) :
    (s.setFrame f o).stale g = if g = f then o.epoch != (s.part o.owner).epoch.toNat % 16 else s.stale g := by
  simp only [State.stale, State.frame_setFrame s f g o h, State.part, State.setFrame_parts]
  split
  · simp [h]
  · rfl

theorem State.owner_of_stale {s : State} {f : Nat} (h : s.stale f = true) : (s.frame f).owner ≤ 64 := by
  simp only [State.stale, Bool.and_eq_true, decide_eq_true_eq] at h
  exact h.1

/-- Zero-filling ends the staleness of the frame, and of no other. -/
theorem State.stale_zeroFrame (s : State) (f g : Nat) (h : (s.frame f).owner ≤ 64) :
    (s.zeroFrame f).stale g = if g = f then false else s.stale g := by
  unfold State.zeroFrame
  refine (State.stale_setFrame _ f g _ ?_).trans ?_
  · exact h
  · split
    · exact bne_self_eq_false _
    · rfl

theorem State.rdByte_zeroFrame (s : State) (f a : Nat) :
    (s.zeroFrame f).rdByte a = if frameAddr f ≤ a ∧ a < frameAddr f + frameBytes then 0 else s.rdByte a :=
  State.rdByte_zeroMem s _ _ a

/-! ## The byte that a program reads (R57) -/

/-- The byte that a program's access finds at an address: zero in a stale frame. -/
def State.seen (s : State) (a : Nat) : Byte := if (frameOf a).any s.stale then 0 else s.rdByte a

theorem State.load_one (s : State) (a : Nat) : s.load a 1 = [s.seen a] := by
  have hb : s.rdBytes a 1 = [s.rdByte a] := rfl
  unfold State.load State.seen
  cases frameOf a with
  | none => simp [hb]
  | some f => cases hs : s.stale f <;> simp [hs, hb]

/-- Zero-filling a stale frame changes no byte that a program reads. -/
theorem State.seen_zeroFrame {s : State} {pa f : Nat} (hf : frameOf pa = some f) (hs : s.stale f = true) (a : Nat) :
    (s.zeroFrame f).seen a = s.seen a := by
  have hstale := State.stale_zeroFrame s f (h := State.owner_of_stale hs)
  unfold State.seen
  by_cases ha : frameOf a = some f
  · simp [ha, hs, hstale, State.rdByte_zeroFrame, (frameOf_eq_some_iff hf a).1 ha]
  · have hout := mt (frameOf_eq_some_iff hf a).2 ha
    have hany : (frameOf a).any (s.zeroFrame f).stale = (frameOf a).any s.stale := by
      cases hg : frameOf a with
      | none => rfl
      | some g => exact (hstale g).trans (if_neg fun e => ha (hg.trans (congrArg some e)))
    rw [hany, State.rdByte_zeroFrame, if_neg hout]

/-! ## A frame that is ready for a write (R57, R89, R185) -/

/-- A frame with its stale bytes, if any, filled with zeros. -/
def State.freshen (s : State) (f : Nat) : State := if s.stale f then s.zeroFrame f else s

/-- A frame of a space marked as written to. -/
def State.markWritten (s : State) (f : Nat) : State :=
  if (s.frame f).owner ≤ 64 then
    s.setFrame f { s.frame f with dirty := true, ref := true, gen := (s.part (s.frame f).owner).curGen }
  else s

/-- The state in which the bytes of a store to `pa` land. -/
def State.readied (s : State) (pa : Nat) : State :=
  match frameOf pa with
  | some f => (s.freshen f).markWritten f
  | none => s

/-- A store makes its frame ready and then writes its bytes. -/
theorem State.store_eq (s : State) (pa : Nat) (bs : List Byte) :
    s.store pa bs = ((s.readied pa).wrBytes pa bs).unpoison pa bs.length := by
  unfold State.store State.readied
  cases frameOf pa <;> rfl

theorem State.stale_freshen_self (s : State) (f : Nat) : (s.freshen f).stale f = false := by
  unfold State.freshen
  split
  · next h => rw [State.stale_zeroFrame s f f (State.owner_of_stale h), if_pos rfl]
  · next h => exact Bool.eq_false_iff.2 h

theorem State.seen_freshen {pa f : Nat} (s : State) (hf : frameOf pa = some f) (a : Nat) :
    (s.freshen f).seen a = s.seen a := by
  unfold State.freshen
  split
  · next h => exact State.seen_zeroFrame hf h a
  · rfl

/-- The mark leaves the owner and the epoch of the frame. -/
theorem State.stale_markWritten (s : State) (f : Nat) : (s.markWritten f).stale = s.stale := by
  unfold State.markWritten
  split
  · next h =>
    funext g
    rw [State.stale_setFrame]
    · split
      · next e => simp [e, State.stale, h]
      · rfl
    · exact h
  · rfl

theorem State.rdByte_markWritten (s : State) (f a : Nat) : (s.markWritten f).rdByte a = s.rdByte a := by
  unfold State.markWritten
  split <;> rfl

theorem State.seen_markWritten (s : State) (f a : Nat) : (s.markWritten f).seen a = s.seen a := by
  simp only [State.seen, State.stale_markWritten, State.rdByte_markWritten]

/-- Making a frame ready changes no byte that a program reads. -/
theorem State.seen_readied (s : State) (pa a : Nat) : (s.readied pa).seen a = s.seen a := by
  unfold State.readied
  cases hf : frameOf pa with
  | none => rfl
  | some f => exact (State.seen_markWritten _ _ _).trans (State.seen_freshen s hf a)

/-- The frame that a store meets is no longer stale when its bytes land. -/
theorem State.fresh_readied (s : State) (pa : Nat) : (frameOf pa).any (s.readied pa).stale = false := by
  unfold State.readied
  cases frameOf pa with
  | none => rfl
  | some f =>
    show ((s.freshen f).markWritten f).stale f = false
    rw [State.stale_markWritten, State.stale_freshen_self]

/-! ## What a program reads after a store -/

/-- Writing bytes makes no frame stale or fresh. -/
theorem State.seen_store (s : State) (pa : Nat) (bs : List Byte) (a : Nat) :
    (s.store pa bs).seen a =
      if (frameOf a).any (s.readied pa).stale then 0 else ((s.readied pa).wrBytes pa bs).rdByte a := by
  rw [State.store_eq, State.wrBytes_eq]
  rfl

theorem State.seen_store_in (s : State) (pa : Nat) (bs : List Byte) (k : Nat) (hk : k < bs.length)
    (hfit : pa % frameBytes + bs.length ≤ frameBytes) : (s.store pa bs).seen (pa + k) = bs[k] := by
  have hpage : (pa + k) / frameBytes = pa / frameBytes := by simp only [frameBytes] at *; omega
  rw [State.seen_store, frameOf_congr hpage, State.fresh_readied, State.rdByte_wrBytes_in bs _ _ k hk]
  rfl

theorem State.seen_store_out (s : State) (pa : Nat) (bs : List Byte) (a : Nat) (h : a < pa ∨ pa + bs.length ≤ a) :
    (s.store pa bs).seen a = s.seen a := by
  rw [State.seen_store, State.rdByte_wrBytes_out bs _ _ _ h]
  exact State.seen_readied s pa a

/-- Settles O25: making a frame ready changes no byte that a program reads, and the bytes land in a frame that is not stale. -/
theorem storesReadBack : Obligations.StoresReadBack := by
  unfold Obligations.StoresReadBack
  intro s pa bs _ hfit
  constructor
  · intro k hk
    rw [State.load_one, State.seen_store_in s pa bs k hk hfit, List.getD_eq_getElem?_getD, List.getElem?_eq_getElem hk,
      Option.getD_some]
  · intro a ha
    rw [State.load_one, State.load_one, State.seen_store_out s pa bs a ha]

end Sys2Proof.Machine
end
